-- ==== Sys2Proof/Word.lean ====
section
/-! DEFINITION. The one machine word of the block, a byte, and the two triples made of channel values. -/

namespace Sys2Proof

/-- A line-state snapshot, a Channel value, a byte of an issued operation (00_scope.md section 5, `LS_WIDTH`, `CH_WIDTH`). -/
abbrev Byte := BitVec 8

/-- Three 8-bit Channel values in the order R, G, B (00_scope.md section 7, "Frame"; 10_state.md R16, R27). -/
structure Rgb where
  r : Byte
  g : Byte
  b : Byte
  deriving DecidableEq, Repr, Inhabited

/-- A frame as the compositor computes it: three unbounded naturals (42_animation_engine.md R130). That each is at
most 255 is rule R127, not a property of the type. -/
structure Frame where
  r : Nat
  g : Nat
  b : Nat
  deriving DecidableEq, Repr, Inhabited

/-- The frame whose numbers are three Channel values, zero-extended. -/
def Rgb.toFrame (c : Rgb) : Frame := ⟨c.r.toNat, c.g.toNat, c.b.toNat⟩

end Sys2Proof
end

