-- ==== Sys2Proof/Syntax.lean ====
section
/-! DEFINITION. The operations of the machine (spec/opcode_table.json, 30_encoding.md R70), one constructor per row,
and the data their operands are made of. -/

namespace Sys2Proof

/-- The four animation modes (10_state.md R19). -/
inductive Mode where
  | cpuLoad
  | colorCycle
  | pulse
  | static
  deriving DecidableEq, Repr, Inhabited

/-- One option of the configuration record as the host supplies it: left out, written but not a legal value
(30_encoding.md R72, 92_eei_decisions.md D22), or given. -/
inductive Supplied (α : Type) where
  | absent
  | bad
  | given (v : α)
  deriving DecidableEq, Repr, Inhabited

/-- The configuration record (30_encoding.md R66). A mode that is none of the four names, a speed that is no
non-negative integer, a color that is no hexadecimal number and a boolean that is neither value are `bad`; a
hexadecimal number that does not fit 24 bits is `given` and refused by `CONFIG`. `unknownOption` says that an option
name beyond the seven was supplied. -/
structure ConfigRecord where
  mode : Supplied Mode
  speed : Supplied Nat
  color : Supplied Nat
  beat : Supplied Bool
  throb : Supplied Bool
  simulate : Supplied Bool
  debug : Supplied Bool
  unknownOption : Bool
  deriving DecidableEq, Repr, Inhabited

/-- The operand of `EXIT` (44_scheduler_and_sink.md R169): `EXIT_OK` or `EXIT_FAIL`. -/
inductive ExitCode where
  | ok
  | fail
  deriving DecidableEq, Repr, Inhabited

/-- The operations (30_encoding.md R70). A value operand of the encoder is an unsigned integer of any size
(30_encoding.md R69). -/
inductive Instr where
  | setd (b : Bool)
  | clkh
  | clkl
  | emit
  | encbit (b : Bool)
  | encbyte (v : Nat)
  | encframe (r g b : Nat)
  | sendframe (r g b : Nat)
  | decframe (bytes : List Byte)
  | tickCpuload
  | tickCycle
  | tickPulse
  | stepStatic
  | unpack (c : BitVec 24)
  | sample
  | smploop
  | config (record : ConfigRecord)
  | init
  | runtick
  | write (bytes : List Byte)
  | simwrite (bytes : List Byte) (t : Rgb)
  | teardown
  | exit (code : ExitCode)
  | stopreq
  deriving DecidableEq, Repr, Inhabited

end Sys2Proof
end

