-- ==== Sys2Proof/WellFormed.lean ====
section
/-! DEFINITION. Which operations are well formed: the sink's operand is one whole transaction of 72 bytes. -/

namespace Sys2Proof

/-- The length of a transaction (20_memory.md R46, 44_scheduler_and_sink.md R165, R166). -/
def wholeTransaction (bytes : List Byte) : Bool := bytes.length == 72

/-- `WRITE` and `SIMWRITE` take exactly 72 bytes; every other operand type admits every value. That the bytes need not be
the snapshots of a frame (log 38), nor a `SIMWRITE`'s triple the frame they encode (log 40), is the model's choice. -/
def Instr.wellFormed : Instr → Bool
  | .setd _ => true
  | .clkh => true
  | .clkl => true
  | .emit => true
  | .encbit _ => true
  | .encbyte _ => true
  | .encframe _ _ _ => true
  | .sendframe _ _ _ => true
  | .decframe _ => true
  | .tickCpuload => true
  | .tickCycle => true
  | .tickPulse => true
  | .stepStatic => true
  | .unpack _ => true
  | .sample => true
  | .smploop => true
  | .config _ => true
  | .init => true
  | .runtick => true
  | .write bytes => wholeTransaction bytes
  | .simwrite bytes _ => wholeTransaction bytes
  | .teardown => true
  | .exit _ => true
  | .stopreq => true

end Sys2Proof
end

