-- ==== Sys2Proof/Decode.lean ====
section
/-! DEFINITION. Operations as bytes: the code of 30_encoding.md R70 in the first byte, then the operands. The codes are
the spec's; no source lays operands out, so their bytes are the model's own (log 16): a bit is one byte 0 or 1, a
natural number is written seven bits a byte from the low end with bit 7 set on every byte but the last, a byte
sequence of free length has its length before it, a transaction is its 72 bytes, a colour word its three bytes from
red to blue, and an option of the configuration record one byte that says how it is given, then its value. -/

namespace Sys2Proof

/-- The code of an operation (30_encoding.md R70; spec/opcode_table.json `match`, `mask` 0xFF). -/
def Instr.opcode : Instr → Byte
  | .setd _ => 0x01
  | .clkh => 0x02
  | .clkl => 0x03
  | .emit => 0x04
  | .encbit _ => 0x08
  | .encbyte _ => 0x09
  | .encframe _ _ _ => 0x10
  | .sendframe _ _ _ => 0x11
  | .decframe _ => 0x12
  | .tickCpuload => 0x20
  | .tickCycle => 0x21
  | .tickPulse => 0x22
  | .stepStatic => 0x23
  | .unpack _ => 0x24
  | .sample => 0x30
  | .smploop => 0x31
  | .config _ => 0x40
  | .init => 0x41
  | .runtick => 0x42
  | .write _ => 0x43
  | .simwrite _ _ => 0x44
  | .teardown => 0x45
  | .exit _ => 0x46
  | .stopreq => 0x47

/-- Why a decoder refuses bytes: there are none, the code names no operation (30_encoding.md R70), or the bytes after
the code are no operands of it. -/
inductive DecodeError where
  | nothingIssued
  | noSuchOperation (code : Byte)
  | badOperands (code : Byte)
  deriving DecidableEq, Repr, Inhabited

/-! Reading operands: each reader takes the value off the front and leaves the rest. -/

def readByte : List Byte → Option (Byte × List Byte)
  | [] => none
  | b :: bytes => some (b, bytes)

/-- One byte, 0 for false and 1 for true; the 254 others are refused. -/
def readBit : List Byte → Option (Bool × List Byte)
  | [] => none
  | b :: bytes => if b = 0 then some (false, bytes) else if b = 1 then some (true, bytes) else none

/-- A natural number, seven bits a byte, low end first. A last byte 0 after a byte with bit 7 set is refused, so that
a number has one form. -/
def readNat : List Byte → Option (Nat × List Byte)
  | [] => none
  | b :: bytes =>
    if b.toNat < 128 then some (b.toNat, bytes)
    else match readNat bytes with
      | none => none
      | some (high, rest) => if high = 0 then none else some (b.toNat - 128 + 128 * high, rest)

/-- Exactly `n` bytes. -/
def readBytes : Nat → List Byte → Option (List Byte × List Byte)
  | 0, bytes => some ([], bytes)
  | _ + 1, [] => none
  | n + 1, b :: bytes =>
    match readBytes n bytes with
    | none => none
    | some (taken, rest) => some (b :: taken, rest)

/-- A byte sequence with its length before it. -/
def readSequence (bytes : List Byte) : Option (List Byte × List Byte) :=
  match readNat bytes with
  | none => none
  | some (n, rest) => readBytes n rest

def readRgb : List Byte → Option (Rgb × List Byte)
  | r :: g :: b :: bytes => some (⟨r, g, b⟩, bytes)
  | _ => none

def readColor : List Byte → Option (BitVec 24 × List Byte)
  | r :: g :: b :: bytes => some (r ++ g ++ b, bytes)
  | _ => none

def readExitCode : List Byte → Option (ExitCode × List Byte)
  | [] => none
  | b :: bytes => if b = 0 then some (.ok, bytes) else if b = 1 then some (.fail, bytes) else none

/-- A mode option: 0 absent, 1 to 4 the modes of 30_encoding.md R67 with their code plus one, 5 an unknown name. -/
def readModeField : List Byte → Option (Supplied Mode × List Byte)
  | [] => none
  | b :: bytes =>
    if b = 0 then some (.absent, bytes)
    else if b = 1 then some (.given .cpuLoad, bytes)
    else if b = 2 then some (.given .colorCycle, bytes)
    else if b = 3 then some (.given .pulse, bytes)
    else if b = 4 then some (.given .static, bytes)
    else if b = 5 then some (.bad, bytes)
    else none

/-- A numeric option: 0 absent, 1 given with its number after it, 2 not a number of the option's kind. -/
def readNatField : List Byte → Option (Supplied Nat × List Byte)
  | [] => none
  | b :: bytes =>
    if b = 0 then some (.absent, bytes)
    else if b = 1 then
      match readNat bytes with
      | none => none
      | some (n, rest) => some (.given n, rest)
    else if b = 2 then some (.bad, bytes)
    else none

/-- A boolean option: 0 absent, 1 false, 2 true, 3 neither value. -/
def readBoolOption : List Byte → Option (Supplied Bool × List Byte)
  | [] => none
  | b :: bytes =>
    if b = 0 then some (.absent, bytes)
    else if b = 1 then some (.given false, bytes)
    else if b = 2 then some (.given true, bytes)
    else if b = 3 then some (.bad, bytes)
    else none

/-- The configuration record, its options in the order of 30_encoding.md R66, then whether an unknown option was
supplied. -/
def readRecord (bytes : List Byte) : Option (ConfigRecord × List Byte) := do
  let (mode, bytes) ← readModeField bytes
  let (speed, bytes) ← readNatField bytes
  let (color, bytes) ← readNatField bytes
  let (beat, bytes) ← readBoolOption bytes
  let (throb, bytes) ← readBoolOption bytes
  let (simulate, bytes) ← readBoolOption bytes
  let (debug, bytes) ← readBoolOption bytes
  let (unknownOption, bytes) ← readBit bytes
  some (⟨mode, speed, color, beat, throb, simulate, debug, unknownOption⟩, bytes)

/-- Three value operands, R first. -/
def readTriple (bytes : List Byte) : Option ((Nat × Nat × Nat) × List Byte) := do
  let (r, bytes) ← readNat bytes
  let (g, bytes) ← readNat bytes
  let (b, bytes) ← readNat bytes
  some ((r, g, b), bytes)

/-- The operands after a code; the outer `none` is a code that names no operation. -/
def readOperands (code : Nat) (bytes : List Byte) : Option (Option (Instr × List Byte)) :=
  match code with
  | 0x01 => some ((readBit bytes).map fun p => (.setd p.1, p.2))
  | 0x02 => some (some (.clkh, bytes))
  | 0x03 => some (some (.clkl, bytes))
  | 0x04 => some (some (.emit, bytes))
  | 0x08 => some ((readBit bytes).map fun p => (.encbit p.1, p.2))
  | 0x09 => some ((readNat bytes).map fun p => (.encbyte p.1, p.2))
  | 0x10 => some ((readTriple bytes).map fun p => (.encframe p.1.1 p.1.2.1 p.1.2.2, p.2))
  | 0x11 => some ((readTriple bytes).map fun p => (.sendframe p.1.1 p.1.2.1 p.1.2.2, p.2))
  | 0x12 => some ((readSequence bytes).map fun p => (.decframe p.1, p.2))
  | 0x20 => some (some (.tickCpuload, bytes))
  | 0x21 => some (some (.tickCycle, bytes))
  | 0x22 => some (some (.tickPulse, bytes))
  | 0x23 => some (some (.stepStatic, bytes))
  | 0x24 => some ((readColor bytes).map fun p => (.unpack p.1, p.2))
  | 0x30 => some (some (.sample, bytes))
  | 0x31 => some (some (.smploop, bytes))
  | 0x40 => some ((readRecord bytes).map fun p => (.config p.1, p.2))
  | 0x41 => some (some (.init, bytes))
  | 0x42 => some (some (.runtick, bytes))
  | 0x43 => some ((readBytes 72 bytes).map fun p => (.write p.1, p.2))
  | 0x44 => some (do
      let (sent, bytes) ← readBytes 72 bytes
      let (t, bytes) ← readRgb bytes
      some (.simwrite sent t, bytes))
  | 0x45 => some (some (.teardown, bytes))
  | 0x46 => some ((readExitCode bytes).map fun p => (.exit p.1, p.2))
  | 0x47 => some (some (.stopreq, bytes))
  | _ => none

/-- The operation at the front of a byte sequence and the bytes after it. -/
def decode : List Byte → Except DecodeError (Instr × List Byte)
  | [] => .error .nothingIssued
  | code :: bytes =>
    match readOperands code.toNat bytes with
    | none => .error (.noSuchOperation code)
    | some none => .error (.badOperands code)
    | some (some p) => .ok p

/-! The encoder, written from the same layouts. -/

def bitByte (b : Bool) : Byte := if b then 1 else 0

/-- `natBytesFrom fuel n` writes `n`, low end first; `fuel` above `n` is enough. -/
def natBytesFrom : Nat → Nat → List Byte
  | 0, _ => []
  | fuel + 1, n =>
    if n < 128 then [BitVec.ofNat 8 n]
    else BitVec.ofNat 8 (128 + n % 128) :: natBytesFrom fuel (n / 128)

def natBytes (n : Nat) : List Byte := natBytesFrom (n + 1) n

def modeFieldBytes : Supplied Mode → List Byte
  | .absent => [0]
  | .given .cpuLoad => [1]
  | .given .colorCycle => [2]
  | .given .pulse => [3]
  | .given .static => [4]
  | .bad => [5]

def natFieldBytes : Supplied Nat → List Byte
  | .absent => [0]
  | .given n => 1 :: natBytes n
  | .bad => [2]

def boolOptionByte : Supplied Bool → Byte
  | .absent => 0
  | .given false => 1
  | .given true => 2
  | .bad => 3

def recordBytes (c : ConfigRecord) : List Byte :=
  modeFieldBytes c.mode ++ natFieldBytes c.speed ++ natFieldBytes c.color ++
    [boolOptionByte c.beat, boolOptionByte c.throb, boolOptionByte c.simulate, boolOptionByte c.debug,
      bitByte c.unknownOption]

def exitCodeByte : ExitCode → Byte
  | .ok => 0
  | .fail => 1

def colorBytes (c : BitVec 24) : List Byte :=
  [c.extractLsb' 16 8, c.extractLsb' 8 8, c.extractLsb' 0 8]

/-- The bytes after the code. -/
def Instr.operandBytes : Instr → List Byte
  | .setd b => [bitByte b]
  | .clkh => []
  | .clkl => []
  | .emit => []
  | .encbit b => [bitByte b]
  | .encbyte v => natBytes v
  | .encframe r g b => natBytes r ++ natBytes g ++ natBytes b
  | .sendframe r g b => natBytes r ++ natBytes g ++ natBytes b
  | .decframe bytes => natBytes bytes.length ++ bytes
  | .tickCpuload => []
  | .tickCycle => []
  | .tickPulse => []
  | .stepStatic => []
  | .unpack c => colorBytes c
  | .sample => []
  | .smploop => []
  | .config record => recordBytes record
  | .init => []
  | .runtick => []
  | .write bytes => bytes
  | .simwrite bytes t => bytes ++ [t.r, t.g, t.b]
  | .teardown => []
  | .exit code => [exitCodeByte code]
  | .stopreq => []

/-- The bytes of an operation. -/
def encode (i : Instr) : List Byte := i.opcode :: i.operandBytes

/-! Words numbered as spec/opcode_table.json numbers them. -/

/-- The first `n` bytes of a word, the byte of bits 7 to 0 first. -/
def wordBytes : Nat → Nat → List Byte
  | 0, _ => []
  | n + 1, w => BitVec.ofNat 8 w :: wordBytes n (w / 256)

/-- The bytes that stand for a table word: its `nbits`, then zero bytes up to the longest operation that zero
operands can make, `SIMWRITE` with 1 + 72 + 3 bytes. -/
def tableBytes (nbits w : Nat) : List Byte := wordBytes (nbits / 8) w ++ List.replicate 76 0

/-- The operation the decoder reads from a table word; `none` where it refuses. -/
def decodeTableWord (nbits w : Nat) : Option Instr :=
  match decode (tableBytes nbits w) with
  | .ok (i, _) => some i
  | .error _ => none

/-- The bytes of the one operation at the front of `tableBytes`, without the zero bytes it does not take; all of them
where the decoder refuses. -/
def tableOperation (nbits w : Nat) : List Byte :=
  match decode (tableBytes nbits w) with
  | .ok (_, rest) => (tableBytes nbits w).take ((tableBytes nbits w).length - rest.length)
  | .error _ => tableBytes nbits w

end Sys2Proof
end

