-- ==== Sys2Proof/Config.lean ====
section
/-! DEFINITION. What is fixed for a machine but given by no source (the OPEN parameters of 00_scope.md section 5) and
the free values: constants with no body, so that nothing can be proved of their values. Machine/Params.lean makes the
legal parameters out of them. -/

namespace Sys2Proof

/-- What the sink answers to one `write`: success, or failure after the first `delivered` bytes, 0 to 72
(44_scheduler_and_sink.md R165, 60_exceptions.md R191). -/
inductive SinkAnswer where
  | ok
  | fail (delivered : Fin 73)
  deriving DecidableEq, Repr, Inhabited

/-- The four CPU-time counters of a `METRIC` read (20_memory.md R52, 43_load_sampler.md R150). -/
structure Counters where
  user : Nat
  nice : Nat
  system : Nat
  idle : Nat
  deriving DecidableEq, Repr, Inhabited

/-- What the metric source answers to the two reads of one `SAMPLE` (43_load_sampler.md R150): the counters at the
start, and by how much each has grown at the end; `none` where that read fails. Counters are cumulative: growth is a
natural number (corner case (a) of R150; log 9). -/
structure MetricAnswer where
  first : Option Counters
  growth : Option Counters
  deriving DecidableEq, Repr, Inhabited

/-- The agents that take steps of their own (00_scope.md R2 (a), (b), (d)). -/
inductive Agent where
  | render
  | sampler
  | host
  deriving DecidableEq, Repr, Inhabited

/-- The levels of the two wires, `true` for high (10_state.md R38). -/
structure Wires where
  clock : Bool
  data : Bool
  deriving DecidableEq, Repr, Inhabited

/-- The options a `ConfigurationInvalid` can name (30_encoding.md R72; the four booleans by 92_eei_decisions.md D22,
log 27). -/
inductive OptionName where
  | mode
  | speed
  | color
  | beat
  | throb
  | simulate
  | debug
  | unknown
  deriving DecidableEq, Repr, Inhabited

/-- Which step made the device unavailable (60_exceptions.md R181). -/
inductive DeviceStep where
  | opening
  | enteringBitbang
  deriving DecidableEq, Repr, Inhabited

/-- The four exceptions (60_exceptions.md R180). -/
inductive ErrorClass where
  | deviceUnavailable
  | writeFailure
  | metricSourceUnavailable
  | configurationInvalid
  deriving DecidableEq, Repr, Inhabited

/-- The three fatal causes with the information each records: the failed step (60_exceptions.md R181), the frame that
failed as its snapshots (R182, 41_frame_encoder.md R102), the offending option (R184). -/
inductive FatalCause where
  | deviceUnavailable (failed : DeviceStep)
  | writeFailure (snapshots : List Byte)
  | configurationInvalid (option : OptionName)
  deriving DecidableEq, Repr, Inhabited

/-- OPEN parameter `CLOCK_BIT` (10_state.md R11; log 1). -/
opaque Config.clockBit : Fin 8

/-- How far above `CLOCK_BIT`, cyclically and less one, `DATA_BIT` lies (10_state.md R12; log 1). -/
opaque Config.dataOffset : Fin 7

/-- OPEN parameter `BITBANG_MASK` (44_scheduler_and_sink.md R162; log 2). -/
opaque Config.bitbangMask : Byte

/-- OPEN parameter `PALETTE[0..5]` (10_state.md R27; log 3). -/
opaque Config.palette : Fin 6 → Rgb

/-- The numerics field behind `SIN(n, d)` before its three facts are imposed (42_animation_engine.md R117; log 4). -/
opaque Config.sinFree : Nat → Nat → Rat

/-- OPEN parameter behind `EXIT_FAIL`: its sign (92_eei_decisions.md D10; log 5). -/
opaque Config.exitFailNegative : Bool

/-- OPEN parameter behind `EXIT_FAIL`: its size, less one (92_eei_decisions.md D10; log 5). -/
opaque Config.exitFailSize : Nat

/-- OPEN parameter `SIM_FORMAT`: the text printed for a triple (44_scheduler_and_sink.md R166; log 6). -/
opaque Config.simFormat : Rgb → List Byte

/-- The text of a fatal error's message (60_exceptions.md R185, R189; log 6). -/
opaque Config.messageText : FatalCause → List Byte

/-- Free value: the debug text of one tick (44_scheduler_and_sink.md R167, `DEBUG_FORMAT`; log 6). -/
opaque Config.debugText : Nat → List Byte

/-- Free value: does the device answer an open or an `enter_bitbang_mode` with success (44_scheduler_and_sink.md
R162, R174; log 7). -/
opaque Config.deviceAnswer : Nat → Bool

/-- Free value: the sink's answer to a `write` (44_scheduler_and_sink.md R165; log 7). -/
opaque Config.sinkAnswer : Nat → SinkAnswer

/-- Free value: the metric source's answer to one sample (43_load_sampler.md R150; log 7). -/
opaque Config.metricAnswer : Nat → MetricAnswer

/-- Free value: the record the host supplies (44_scheduler_and_sink.md R160, R174; log 7). -/
opaque Config.hostRecord : Nat → ConfigRecord

/-- Free value: which agent takes the next step (60_exceptions.md R197; log 18). -/
opaque Config.nextAgent : Nat → Agent

/-- Free value: the levels of the wires where no source gives them (10_state.md R38, 70_reset_and_hazards.md R214;
log 10). -/
opaque Config.wires : Nat → Wires

/-- Free value: which of several illegal options a `ConfigurationInvalid` names (60_exceptions.md R184; log 26). -/
opaque Config.whichOption : Nat → Nat

end Sys2Proof
end

