-- ==== Sys2Proof/Machine/Params.lean ====
section
/-! DEFINITION. The parameters of 00_scope.md section 5: the fixed numbers, and the legal forms of the OPEN ones made
from the constants of Config.lean. -/

namespace Sys2Proof.Machine

/-- Where CLOCK and DATA lie in a line-state byte (10_state.md R11, R12). The encoder's functions take the pair as an
argument; the machine uses `linePins`. -/
structure Pins where
  clock : Fin 8
  data : Fin 8
  deriving DecidableEq, Repr, Inhabited

/-- The two bit positions of the machine: any `CLOCK_BIT`, and the position `1 + dataOffset` places above it,
counted cyclically, so any other one (log 1). -/
def linePins : Pins := ⟨Config.clockBit, Config.clockBit + 1 + ⟨Config.dataOffset, by omega⟩⟩

/-- `CLOCK_MASK` (00_scope.md section 5). -/
def Pins.clockMask (p : Pins) : Byte := 1#8 <<< p.clock.val

/-- `DATA_MASK` (00_scope.md section 5). -/
def Pins.dataMask (p : Pins) : Byte := 1#8 <<< p.data.val

/-- `SNAPS_PER_FRAME` (00_scope.md section 5). -/
def snapsPerFrame : Nat := 72

/-- `PALETTE_LEN`. -/
def paletteLen : Nat := 6

/-- `CC_STEPS`. -/
def ccSteps : Nat := 128

/-- `LEVEL`, the numerator of ColorCycle's brightness scale. -/
def cycleLevel : Nat := 10

/-- `LEVEL_DEN`. -/
def cycleLevelDen : Nat := 10

/-- `BEAT_AMP`. -/
def beatAmp : Nat := 8

/-- `BEAT_DIV`. -/
def beatDiv : Nat := 10

/-- `THROB_BASE`. -/
def throbBase : Nat := 191

/-- `THROB_AMP`. -/
def throbAmp : Nat := 32

/-- `THROB_OFF_LEVEL`. -/
def throbOffLevel : Nat := 255

/-- `TRATE_MIN`. -/
def tRateMin : Nat := 5

/-- `TRATE_DIV`. -/
def tRateDiv : Nat := 5

/-- `LOAD_MAX`. -/
def loadMax : Nat := 100

/-- The default of `MODE` (10_state.md R19). -/
def defaultMode : Mode := .cpuLoad

/-- The default of `SPEED` (10_state.md R20). -/
def defaultSpeed : Nat := 100

/-- The default of `COLOR` (10_state.md R21). -/
def defaultColor : BitVec 24 := 0xFFFFFF

/-- `EXIT_OK`. -/
def exitOk : Int := 0

/-- `EXIT_FAIL`: some non-zero integer, and every one of them is possible (log 5). -/
def exitFail : Int := if Config.exitFailNegative then -(Config.exitFailSize + 1) else Config.exitFailSize + 1

/-- `SIN(n, d)` (42_animation_engine.md R117): a function of `n` and `d` alone, 0 where `n` is 0, never outside
[-1, 1], and nothing else known. Its values are rational; every frame that a real sine gives is given by a rational
one too, because only truncations of it are used (log 4). -/
def sine (n d : Nat) : Rat := if n = 0 then 0 else max (-1) (min 1 (Config.sinFree n d))

/-- `trunc(x)` of 00_scope.md section 6 for the non-negative numbers it is used on. -/
def trunc (x : Rat) : Nat := x.floor.toNat

/-- The number of an exception (60_exceptions.md R180; the spec's own numbering). -/
def errorCode : ErrorClass → Nat
  | .deviceUnavailable => 1
  | .writeFailure => 2
  | .metricSourceUnavailable => 3
  | .configurationInvalid => 4

/-- Does an exception end the run (60_exceptions.md R180). -/
def errorFatal : ErrorClass → Bool
  | .deviceUnavailable => true
  | .writeFailure => true
  | .metricSourceUnavailable => false
  | .configurationInvalid => true

/-- The exception a fatal cause is an occurrence of. -/
def causeClass : FatalCause → ErrorClass
  | .deviceUnavailable _ => .deviceUnavailable
  | .writeFailure _ => .writeFailure
  | .configurationInvalid _ => .configurationInvalid

/-- The mode codes of 30_encoding.md R67 (the spec's own numbering). -/
def modeCode : Mode → Nat
  | .cpuLoad => 0
  | .colorCycle => 1
  | .pulse => 2
  | .static => 3

/-- The operation a mode runs at every tick (30_encoding.md R67, 42_animation_engine.md R115). -/
def tickOperation : Mode → Instr
  | .cpuLoad => .tickCpuload
  | .colorCycle => .tickCycle
  | .pulse => .tickPulse
  | .static => .stepStatic

end Sys2Proof.Machine
end

