-- ==== Sys2Proof/Machine/State.lean ====
section
/-! DEFINITION. The state of the machine (10_state.md, 20_memory.md section 1), plain data, with every register the
spec names and the few fields of the model's own that INVENTORY.md lists; its value at reset; the reasons a step can
stop. -/

namespace Sys2Proof.Machine

/-- `ST_PHASE` (10_state.md R33). -/
inductive StPhase where
  | send1
  | pause
  | send2
  | done
  deriving DecidableEq, Repr, Inhabited

/-- What the render agent does next in the order of a run (44_scheduler_and_sink.md R161; log 14). -/
inductive RunPhase where
  | awaitConfig
  | awaitOpen
  | awaitInit
  | awaitSampler
  | looping
  | awaitTeardown
  | awaitExit
  deriving DecidableEq, Repr, Inhabited

/-- What an observer outside the block sees (00_scope.md R3, 44_scheduler_and_sink.md R176; log 13). -/
inductive Event where
  | openDevice (ok : Bool)
  | enterBitbang (mask : Byte) (ok : Bool)
  | write (bytes : List Byte) (answer : SinkAnswer)
  | simWrite (bytes : List Byte) (t : Rgb) (text : List Byte)
  | teardown
  | debugText (text : List Byte)
  | message (cause : FatalCause) (text : List Byte)
  | exit (status : Int)
  deriving DecidableEq, Repr, Inhabited

/-- What an operation that returns a value has returned (log 13). -/
inductive Result where
  | nothing
  | frame (f : Frame)
  | invalid
  | percent (p : Nat)
  | noValue
  | raised (x : ErrorClass)
  | sinkOk
  | sinkFail
  deriving DecidableEq, Repr, Inhabited

/-- The state. -/
@[ext]
structure State where
  /-- `LS`, 10_state.md R10. -/
  ls : Byte
  /-- `FR.R`, x[0], 10_state.md R16. -/
  frR : Byte
  /-- `FR.G`, x[1], 10_state.md R16. -/
  frG : Byte
  /-- `FR.B`, x[2], 10_state.md R16. -/
  frB : Byte
  /-- `OUT`, 10_state.md R17. -/
  out : List Byte
  /-- `POS`, 10_state.md R18. -/
  pos : Nat
  /-- `MODE`, 10_state.md R19. -/
  mode : Mode
  /-- `SPEED`, 10_state.md R20. -/
  speed : Nat
  /-- `COLOR`, 10_state.md R21. -/
  color : BitVec 24
  /-- `BEAT`, 10_state.md R22. -/
  beat : Bool
  /-- `THROB`, 10_state.md R23. -/
  throb : Bool
  /-- `SIMULATE`, 10_state.md R24. -/
  simulate : Bool
  /-- `DEBUG`, 10_state.md R25. -/
  debug : Bool
  /-- `SMOOTHED_LOAD`, the `LOADCELL` space, 10_state.md R28, 20_memory.md R50. -/
  smoothedLoad : Nat
  /-- `RENDERED_LOAD`, 10_state.md R29. -/
  renderedLoad : Nat
  /-- `TICK_BEAT`, 10_state.md R30. -/
  tickBeat : Nat
  /-- `TICK_THROB`, 10_state.md R30. -/
  tickThrob : Nat
  /-- `TICK_PULSE`, 10_state.md R31. -/
  tickPulse : Nat
  /-- `CC_INDEX`, 10_state.md R32. -/
  ccIndex : Nat
  /-- `CC_STEP`, 10_state.md R32. -/
  ccStep : Nat
  /-- `ST_PHASE`, 10_state.md R33. -/
  stPhase : StPhase
  /-- `STOP`, 10_state.md R34. -/
  stop : Bool
  /-- `FAULT`, 10_state.md R35, with what 60_exceptions.md R181, R182, R184 record. -/
  fault : Option FatalCause
  /-- `INITED`, 10_state.md R36. -/
  inited : Bool
  /-- `SMP_HAVE`, 10_state.md R37. -/
  smpHave : Bool
  /-- `SMP_LAST`, 10_state.md R37. -/
  smpLast : Nat
  /-- `PHY`, 10_state.md R38. -/
  phy : Wires
  /-- `OUTSTREAM`, 20_memory.md R41. -/
  outStream : List Byte
  /-- The model's own: the place in the order of 44_scheduler_and_sink.md R161 (log 14). -/
  phase : RunPhase
  /-- The model's own: the sampler agent has been started, 44_scheduler_and_sink.md R161 (4) (log 14). -/
  samplerOn : Bool
  /-- The model's own: the exit status once `EXIT` has been performed, 44_scheduler_and_sink.md R169 (log 14). -/
  exitStatus : Option Int
  /-- The model's own: what has been observed, oldest first (log 13). -/
  events : List Event
  /-- The model's own: the value the last operation that returns one has returned (log 13). -/
  ret : Result
  /-- The model's own: bytes of operations issued from outside (log 15). -/
  issue : List Byte
  /-- The model's own: the index of the next free value (log 7). -/
  draws : Nat
  /-- Inputs still to come: the device's answers to an open and to `enter_bitbang_mode` (log 7). -/
  inCalls : List Bool
  /-- Inputs still to come: the sink's answers (log 7). -/
  inSinks : List SinkAnswer
  /-- Inputs still to come: the metric source's answers, one per sample (log 7). -/
  inMetrics : List MetricAnswer
  /-- Inputs still to come: the records the host supplies (log 7). -/
  inRecords : List ConfigRecord
  /-- Inputs still to come: which agent moves next (log 18). -/
  inAgents : List Agent
  deriving DecidableEq, Repr, Inhabited

/-- The state at the start of a run (70_reset_and_hazards.md R210). `FR` and `PHY`, which that rule leaves
unspecified, are 0 and low (log 10, log 11). -/
def State.reset : State where
  ls := 0x00
  frR := 0
  frG := 0
  frB := 0
  out := []
  pos := 0
  mode := .cpuLoad
  speed := 100
  color := 0xFFFFFF
  beat := false
  throb := false
  simulate := false
  debug := false
  smoothedLoad := 0
  renderedLoad := 0
  tickBeat := 0
  tickThrob := 0
  tickPulse := 0
  ccIndex := 0
  ccStep := 0
  stPhase := .send1
  stop := false
  fault := none
  inited := false
  smpHave := false
  smpLast := 0
  phy := ⟨false, false⟩
  outStream := []
  phase := .awaitConfig
  samplerOn := false
  exitStatus := none
  events := []
  ret := .nothing
  issue := []
  draws := 0
  inCalls := []
  inSinks := []
  inMetrics := []
  inRecords := []
  inAgents := []

/-- Reasons for which the machine has no step: places where the spec says that there is none. -/
inductive Fault where
  /-- Any operation of an agent, and the machine's own order, once `EXIT` has been performed: "After `EXIT` no
  operation of any agent has a step" (44_scheduler_and_sink.md R169). Safe: the spec gives no step. -/
  | runEnded
  /-- An operation of the render agent, other than `EXIT EXIT_FAIL`, once a fatal exception was taken (10_state.md
  R35, 60_exceptions.md R185). Safe: the spec gives no step. -/
  | renderHalted
  /-- `STEP.STATIC` at `Done`: "no step" (42_animation_engine.md R125). Safe: the spec gives no step. -/
  | staticDone
  deriving DecidableEq, Repr, Inhabited

/-- Reasons for which an operation has no meaning. -/
inductive Refusal where
  /-- An arm of `exec` whose instruction has no meaning yet. Safe. -/
  | notModelled (mnemonic : String)
  /-- `step`, on issued bytes that are no operation: "a decoder refuses it" (30_encoding.md R70). Safe. -/
  | undecodable (reason : DecodeError)
  /-- `WRITE` before `INIT` has succeeded: "`WRITE` is used only when `SIMULATE` is false and `INITED` is true"
  (44_scheduler_and_sink.md R165; 93_implementation_defined.md U8; log 19). Safe. -/
  | writeBeforeInit
  /-- `WRITE` under `SIMULATE` (44_scheduler_and_sink.md R165; log 19). Safe. -/
  | writeUnderSimulate
  /-- `RUNTICK` about to send to the device before `INIT` has succeeded (10_state.md R36; log 20). Safe. -/
  | runtickBeforeInit
  /-- `SENDFRAME` to the device before `INIT` has succeeded: "a `write` before it is not described by any source and the
  model never makes one" (70_reset_and_hazards.md R213; 93_implementation_defined.md U8; log 20). Safe. -/
  | sendframeBeforeInit
  /-- `STEP.STATIC` about to send to the device before `INIT` has succeeded (70_reset_and_hazards.md R213; log 20).
  Safe. -/
  | stepStaticBeforeInit
  /-- A second `INIT`: "Doing it again during a run ... is not described by any source" (70_reset_and_hazards.md
  R224; 93_implementation_defined.md U8; log 21). Safe. -/
  | initTwice
  /-- A second `CONFIG`: it "happens exactly once" (44_scheduler_and_sink.md R160; log 22). Safe. -/
  | configTwice
  deriving DecidableEq, Repr, Inhabited

/-- The outcome of an operation of this machine. -/
abbrev StepOutcome := Host.Outcome State Fault Refusal

end Sys2Proof.Machine
end

