-- ==== Sys2Proof/Machine/Ops.lean ====
section
/-! DEFINITION. The named operations every meaning is made of: the address spaces of 20_memory.md R40, the frame latch,
the inputs of the machine, the hand-over of a transaction to the sink, taking an exception, and who may move. There is
no return from an exception (60_exceptions.md R192). -/

namespace Sys2Proof.Machine

/-! Who may move. -/

/-- The run has ended: `EXIT` has been performed (44_scheduler_and_sink.md R169, R173). -/
def State.ended (s : State) : Bool := s.exitStatus.isSome

/-- The render agent may perform an operation other than `EXIT`: the run has not ended and no fatal exception was
taken (10_state.md R35, 60_exceptions.md R185). -/
def State.renderReady (s : State) : Bool := s.exitStatus.isNone && s.fault.isNone

/-- An operation of the sampler agent or of the host: it has a step until the run has ended, the sampler's also before
that agent has been started (log 41) and after a fatal exception (log 23). -/
def whileRunning (s : State) (outcome : StepOutcome) : StepOutcome :=
  if s.ended then .fault .runEnded else outcome

/-- An operation of the render agent: it has a step until the run has ended or a fatal exception was taken. -/
def asRender (s : State) (outcome : StepOutcome) : StepOutcome :=
  if s.ended then .fault .runEnded else if s.fault.isSome then .fault .renderHalted else outcome

/-! Free values: each is read at the counter, which then moves on (log 7). -/

def State.afterDraw (s : State) : State := { s with draws := s.draws + 1 }

/-! Inputs: the first listed one, or a free value where none is listed; then the state with it taken (log 7). -/

/-- The device's answer to an open or to `enter_bitbang_mode` (44_scheduler_and_sink.md R162, R174). -/
def State.deviceAnswer (s : State) : Bool :=
  match s.inCalls with
  | [] => Config.deviceAnswer s.draws
  | a :: _ => a

def State.afterDeviceAnswer (s : State) : State :=
  { s with inCalls := s.inCalls.tail, draws := if s.inCalls.isEmpty then s.draws + 1 else s.draws }

/-- The sink's answer to a `write` (44_scheduler_and_sink.md R165). -/
def State.sinkAnswer (s : State) : SinkAnswer :=
  match s.inSinks with
  | [] => Config.sinkAnswer s.draws
  | a :: _ => a

def State.afterSinkAnswer (s : State) : State :=
  { s with inSinks := s.inSinks.tail, draws := if s.inSinks.isEmpty then s.draws + 1 else s.draws }

/-- `MemRead(METRIC, 0, 4)` at the start and at the end of a sample (20_memory.md R52, 43_load_sampler.md R150). -/
def State.metricAnswer (s : State) : MetricAnswer :=
  match s.inMetrics with
  | [] => Config.metricAnswer s.draws
  | a :: _ => a

def State.afterMetricAnswer (s : State) : State :=
  { s with inMetrics := s.inMetrics.tail, draws := if s.inMetrics.isEmpty then s.draws + 1 else s.draws }

/-- The record the host supplies (44_scheduler_and_sink.md R160, R174). -/
def State.hostRecord (s : State) : ConfigRecord :=
  match s.inRecords with
  | [] => Config.hostRecord s.draws
  | a :: _ => a

def State.afterHostRecord (s : State) : State :=
  { s with inRecords := s.inRecords.tail, draws := if s.inRecords.isEmpty then s.draws + 1 else s.draws }

/-- The agent that takes the next step (60_exceptions.md R197; log 18). -/
def State.nextAgent (s : State) : Agent :=
  match s.inAgents with
  | [] => Config.nextAgent s.draws
  | a :: _ => a

def State.afterNextAgent (s : State) : State :=
  { s with inAgents := s.inAgents.tail, draws := if s.inAgents.isEmpty then s.draws + 1 else s.draws }

/-- The wires at levels that no source gives (10_state.md R38, 70_reset_and_hazards.md R214; log 10). -/
def State.freeWires (s : State) : State := { s.afterDraw with phy := Config.wires s.draws }

/-! Observation, and the value an operation returns (log 13). -/

def State.observe (e : Event) (s : State) : State := { s with events := s.events ++ [e] }

def State.returning (x : Result) (s : State) : State := { s with ret := x }

/-! Address spaces (20_memory.md R40). -/

/-- `MemRead(PAL, i, 1)`: the index is taken mod 6 (20_memory.md R49). -/
def readPalette (i : Nat) : Rgb := Config.palette (Fin.ofNat 6 i)

/-- `MemRead(LOADCELL, 0, 1)` (20_memory.md R50, R51). -/
def State.readLoadCell (s : State) : Nat := s.smoothedLoad

/-- `MemWrite(LOADCELL, 0, 1, p)` (20_memory.md R50, R51). -/
def State.writeLoadCell (p : Nat) (s : State) : State := { s with smoothedLoad := p }

/-- Append to `OUTSTREAM` (20_memory.md R41). -/
def State.appendOutStream (bytes : List Byte) (s : State) : State := { s with outStream := s.outStream ++ bytes }

/-- The transaction buffer is handed over and empty again, the sequence position back at 0 (10_state.md R17, R18). -/
def State.clearOut (s : State) : State := { s with out := [], pos := 0 }

/-! Taking an exception. -/

/-- A fatal exception is taken (60_exceptions.md R189): `FAULT` is set to the cause and the message is emitted. From
there the render agent performs `EXIT EXIT_FAIL` and nothing else (R185; `asRender`, Machine/OwnOrder.lean). Nothing is
saved, there is no vector and no mode change. -/
def State.raise (cause : FatalCause) (s : State) : State :=
  { s with fault := some cause }.observe (.message cause (Config.messageText cause))

/-! The sink. -/

/-- A transaction may go to the sink: it is the simulation sink, or `INIT` has succeeded (10_state.md R36,
44_scheduler_and_sink.md R165, 70_reset_and_hazards.md R213). -/
def State.sinkReady (s : State) : Bool := s.simulate || s.inited

/-- An operation that sends if `sends`: no `write` is made before `INIT` has succeeded, so it is refused there
(70_reset_and_hazards.md R213, 93_implementation_defined.md U8; log 20). -/
def guardSend (sends : Bool) (reason : Refusal) (s : State) (outcome : StepOutcome) : StepOutcome :=
  if sends && !s.sinkReady then .refused reason else outcome

/-- The levels a byte gives the wires (60_exceptions.md R196). -/
def wiresOf (p : Pins) (b : Byte) : Wires := ⟨b.getLsbD p.clock, b.getLsbD p.data⟩

/-- The bytes of a transaction that reached the sink under an answer (44_scheduler_and_sink.md R165): all of them, or
the first `delivered`. -/
def deliveredBytes (bytes : List Byte) : SinkAnswer → List Byte
  | .ok => bytes
  | .fail n => bytes.take n

/-- Do the wires follow a device write: if it succeeded. None is made before `INIT` (`guardSend`). `TEARDOWN` leaves
`INITED` true (44_scheduler_and_sink.md R168), so a transaction issued after it is handed over and followed as any other:
the model's choice, since the teardown follows the last transaction (20_memory.md R57) and no source describes one after
it (log 35). -/
def wiresFollow (answer : SinkAnswer) : Bool := answer == .ok

/-- `PHY` after a device write (10_state.md R38): the levels of the last byte after a success, a free value after a
failure (70_reset_and_hazards.md R226; log 10). -/
def State.wiresAfterWrite (bytes : List Byte) (answer : SinkAnswer) (s : State) : State :=
  { s with
    phy := if wiresFollow answer then (bytes.getLast?.map (wiresOf linePins)).getD s.phy else Config.wires s.draws
    draws := if wiresFollow answer then s.draws else s.draws + 1 }

/-- `MemWrite(OUTSTREAM, -, 72, bytes)` on the device sink under the sink's `answer` (44_scheduler_and_sink.md R165):
one call, what was delivered is appended, the wires follow; the same behind the partial frame of a failed bare `WRITE`
(20_memory.md R46; log 37). -/
def State.deviceWriteWith (bytes : List Byte) (answer : SinkAnswer) (s : State) : State :=
  ((s.appendOutStream (deliveredBytes bytes answer)).observe (.write bytes answer)).wiresAfterWrite bytes answer

/-- The same with the answer the sink gives now. -/
def State.deviceWrite (bytes : List Byte) (s : State) : State :=
  s.afterSinkAnswer.deviceWriteWith bytes s.sinkAnswer

/-- The simulation sink (44_scheduler_and_sink.md R166): the triple is printed, the bytes are kept, it always
succeeds. -/
def State.simWrite (bytes : List Byte) (t : Rgb) (s : State) : State :=
  (s.appendOutStream bytes).observe (.simWrite bytes t (Config.simFormat t))

end Sys2Proof.Machine
end

