-- ==== Sys2Proof/Machine/Flags.lean ====
section
/-! DEFINITION. The two flags of the line-state register, CLOCK and DATA (10_state.md R10 to R14): the three ways they
are written, and the functions of the line code that thread the register (00_scope.md R6). The functions take the bit
positions as an argument; the machine's are `linePins`. -/

namespace Sys2Proof.Machine

/-- `SETD b` on the register (40_line_encoder.md R80): DATA takes `b`, every other bit stays. -/
def setData (p : Pins) (b : Bool) (ls : Byte) : Byte := if b then ls ||| p.dataMask else ls &&& ~~~p.dataMask

/-- `CLKH` on the register (40_line_encoder.md R81). -/
def clockHigh (p : Pins) (ls : Byte) : Byte := ls ||| p.clockMask

/-- `CLKL` on the register (40_line_encoder.md R82). -/
def clockLow (p : Pins) (ls : Byte) : Byte := ls &&& ~~~p.clockMask

/-- `LS.CLOCK` of a line-state byte (10_state.md R11). -/
def clockOf (p : Pins) (ls : Byte) : Bool := ls.getLsbD p.clock

/-- `LS.DATA` of a line-state byte (10_state.md R12). -/
def dataOf (p : Pins) (ls : Byte) : Bool := ls.getLsbD p.data

/-- The six reserved bits of a line-state byte, the two others cleared (10_state.md R13). -/
def reservedOf (p : Pins) (ls : Byte) : Byte := ls &&& ~~~(p.clockMask ||| p.dataMask)

/-- The resting state (10_state.md R14): CLOCK low, reserved bits 0. -/
def resting (p : Pins) (ls : Byte) : Bool := !clockOf p ls && reservedOf p ls == 0

/-- The bits of a byte in the order they are sent, bit 7 first (20_memory.md R42). -/
def bitsSent (v : Byte) : List Bool := [7, 6, 5, 4, 3, 2, 1, 0].map fun i => v.getLsbD i

/-- `EncBit(b, ls)` (40_line_encoder.md R84): the three snapshots and the new line state, from
`d = (ls & ~DATA_MASK) | (b << DATA_BIT)`. -/
def encBitFun (p : Pins) (b : Bool) (ls : Byte) : List Byte × Byte :=
  let d := (ls &&& ~~~p.dataMask) ||| (BitVec.zeroExtend 8 (BitVec.ofBool b) <<< p.data.val)
  ([d, d ||| p.clockMask, d &&& ~~~p.clockMask], d &&& ~~~p.clockMask)

/-- `EncBit` folded over a list of bits, the line state threaded and the outputs joined. -/
def encBitsFun (p : Pins) : List Bool → Byte → List Byte × Byte
  | [], ls => ([], ls)
  | b :: bs, ls =>
    let first := encBitFun p b ls
    let others := encBitsFun p bs first.2
    (first.1 ++ others.1, others.2)

/-- `EncByte(v, ls)` (40_line_encoder.md R85). -/
def encByteFun (p : Pins) (v : Byte) (ls : Byte) : List Byte × Byte := encBitsFun p (bitsSent v) ls

/-- `EncFrame(r, g, b, ls)` (41_frame_encoder.md R100), of the three masked operands. -/
def encFrameFun (p : Pins) (c : Rgb) (ls : Byte) : List Byte × Byte :=
  let red := encByteFun p c.r ls
  let green := encByteFun p c.g red.2
  let blue := encByteFun p c.b green.2
  (red.1 ++ green.1 ++ blue.1, blue.2)

/-- Snapshot `k` of the frame `c` by the formula of 30_encoding.md R63. -/
def snapshotOf (p : Pins) (c : Rgb) (k : Nat) : Byte :=
  let v := if k / 24 = 0 then c.r else if k / 24 = 1 then c.g else c.b
  let i := (k % 24) / 3
  (BitVec.zeroExtend 8 (BitVec.ofBool (v.getLsbD (7 - i))) <<< p.data.val) |||
    (BitVec.zeroExtend 8 (BitVec.ofBool (k % 3 == 1)) <<< p.clock.val)

/-- The data bits of a snapshot sequence (30_encoding.md R64, 41_frame_encoder.md R104): DATA at every rising edge of
CLOCK, `prev` the CLOCK bit of the snapshot before. -/
def risingData (p : Pins) : Bool → List Byte → List Bool
  | _, [] => []
  | prev, x :: xs =>
    if clockOf p x && !prev then dataOf p x :: risingData p (clockOf p x) xs else risingData p (clockOf p x) xs

/-- Bits collected most significant first into a number. -/
def bitsToNat (bits : List Bool) : Nat := bits.foldl (fun n b => 2 * n + b.toNat) 0

/-- `DECFRAME` as a function (41_frame_encoder.md R104): a frame where there are exactly 24 rising edges, `none` for
`invalid`. -/
def decFrameFun (p : Pins) (snapshots : List Byte) : Option Frame :=
  let bits := risingData p false snapshots
  if bits.length = 24 then
    some ⟨bitsToNat (bits.take 8), bitsToNat ((bits.drop 8).take 8), bitsToNat ((bits.drop 16).take 8)⟩
  else none

end Sys2Proof.Machine
end

