-- ==== Sys2Proof/Machine/Operands.lean ====
section
/-! DEFINITION. Operand forms: the masking of value operands, the colour word, the frame latch, and the configuration
record (30_encoding.md sections 2 to 4). -/

namespace Sys2Proof.Machine

/-- `trunc8` (30_encoding.md R69): the low 8 bits, never a clamp and never an error. -/
def trunc8 (v : Nat) : Byte := BitVec.ofNat 8 v

/-- The operand hand-over to the frame latch, each operand masked on its own (10_state.md R16, 41_frame_encoder.md
R100). -/
def State.latchFrame (r g b : Nat) (s : State) : State :=
  { s with frR := trunc8 r, frG := trunc8 g, frB := trunc8 b }

/-- The three general registers x[0], x[1], x[2] together (10_state.md R16). -/
def State.latched (s : State) : Rgb := ⟨s.frR, s.frG, s.frB⟩

/-- `UNPACK` as a function (30_encoding.md R65, 42_animation_engine.md R116): red from bits 23 to 16, green from bits
15 to 8, blue from bits 7 to 0. -/
def unpackColor (c : BitVec 24) : Frame :=
  ⟨(c.extractLsb' 16 8).toNat, (c.extractLsb' 8 8).toNat, (c.extractLsb' 0 8).toNat⟩

/-- `SPEED` for a supplied speed: 0 is coerced to 1 (30_encoding.md R68). -/
def coerceSpeed (n : Nat) : Nat := if n = 0 then 1 else n

/-- Is a supplied colour a number that does not fit 24 bits (30_encoding.md R72). -/
def colorIllegal : Supplied Nat → Bool
  | .absent => false
  | .bad => true
  | .given n => decide (2 ^ 24 ≤ n)

def suppliedBad {α : Type} : Supplied α → Bool
  | .absent => false
  | .bad => true
  | .given _ => false

/-- An option's name where the option is illegal. -/
def offending (illegal : Bool) (option : OptionName) : List OptionName := if illegal then [option] else []

/-- The options of a record that are illegal: the four cases of 30_encoding.md R72, and a boolean that is neither value
("Anything else raises `ConfigurationInvalid`", 92_eei_decisions.md D22; log 27). -/
def illegalOptions (c : ConfigRecord) : List OptionName :=
  offending (suppliedBad c.mode) .mode ++ offending (suppliedBad c.speed) .speed ++
    offending (colorIllegal c.color) .color ++ offending (suppliedBad c.beat) .beat ++
    offending (suppliedBad c.throb) .throb ++ offending (suppliedBad c.simulate) .simulate ++
    offending (suppliedBad c.debug) .debug ++ offending c.unknownOption .unknown

/-- The value of an option: the one given, or its default (30_encoding.md R66). -/
def suppliedOr {α : Type} (default : α) : Supplied α → α
  | .absent => default
  | .bad => default
  | .given v => v

/-- Where the run goes after a legal `CONFIG`: to the opening of the device, or past it under `SIMULATE`
(44_scheduler_and_sink.md R161). -/
def phaseAfterConfig (simulate : Bool) : RunPhase := if simulate then .awaitSampler else .awaitOpen

/-- The seven configuration registers take the values of a legal record (44_scheduler_and_sink.md R160); booleans that
are absent are false. -/
def State.latchConfig (c : ConfigRecord) (s : State) : State :=
  { s with
    mode := suppliedOr defaultMode c.mode
    speed := coerceSpeed (suppliedOr defaultSpeed c.speed)
    color := BitVec.ofNat 24 (suppliedOr defaultColor.toNat c.color)
    beat := suppliedOr false c.beat
    throb := suppliedOr false c.throb
    simulate := suppliedOr false c.simulate
    debug := suppliedOr false c.debug
    phase := phaseAfterConfig (suppliedOr false c.simulate) }

/-- The option a `ConfigurationInvalid` names: the illegal one; where several are, any one of them (log 26). -/
def offendingOption (draw : Nat) (illegal : List OptionName) : OptionName :=
  illegal.getD (draw % illegal.length) .unknown

end Sys2Proof.Machine
end

