-- ==== Sys2Proof/Machine/LineEncoder.lean ====
section
/-! DEFINITION. The LineEncoder (40_line_encoder.md): `SETD`, `CLKH`, `CLKL`, `EMIT`, `ENCBIT`, `ENCBYTE`. -/

namespace Sys2Proof.Machine

/-- `SETD b` (40_line_encoder.md R80). -/
def State.setd (b : Bool) (s : State) : State := { s with ls := setData linePins b s.ls }

/-- `CLKH` (40_line_encoder.md R81). -/
def State.clkh (s : State) : State := { s with ls := clockHigh linePins s.ls }

/-- `CLKL` (40_line_encoder.md R82). -/
def State.clkl (s : State) : State := { s with ls := clockLow linePins s.ls }

/-- `EMIT` (40_line_encoder.md R83). -/
def State.emit (s : State) : State := { s with out := s.out ++ [s.ls], pos := s.pos + 1 }

/-- `ENCBIT b` by its expansion (40_line_encoder.md R84, 30_encoding.md R75). -/
def State.encBit (b : Bool) (s : State) : State := (s.setd b).emit.clkh.emit.clkl.emit

/-- `ENCBIT` for each of a list of bits in turn. -/
def State.encBits (bits : List Bool) (s : State) : State := bits.foldl (fun t b => t.encBit b) s

/-- `ENCBYTE v` by its expansion: the low 8 bits, bit 7 first (40_line_encoder.md R85, 30_encoding.md R75). -/
def State.encByte (v : Byte) (s : State) : State := s.encBits (bitsSent v)

def execSetd (b : Bool) (s : State) : StepOutcome := asRender s (.next (s.setd b))

def execClkh (s : State) : StepOutcome := asRender s (.next s.clkh)

def execClkl (s : State) : StepOutcome := asRender s (.next s.clkl)

def execEmit (s : State) : StepOutcome := asRender s (.next s.emit)

def execEncbit (b : Bool) (s : State) : StepOutcome := asRender s (.next (s.encBit b))

def execEncbyte (v : Nat) (s : State) : StepOutcome := asRender s (.next (s.encByte (trunc8 v)))

end Sys2Proof.Machine
end

