-- ==== Sys2Proof/Machine/FrameEncoder.lean ====
section
/-! DEFINITION. The FrameEncoder (41_frame_encoder.md): `ENCFRAME`, `SENDFRAME`, `DECFRAME`. -/

namespace Sys2Proof.Machine

/-- `ENCFRAME r, g, b` (41_frame_encoder.md R100): the latch takes the masked operands, the buffer and the position
start anew, the three channels are encoded on the one line-state register. -/
def State.encFrame (r g b : Nat) (s : State) : State :=
  let t := (s.latchFrame r g b).clearOut
  ((t.encByte t.frR).encByte t.frG).encByte t.frB

/-- `SENDFRAME r, g, b` under `SIMULATE` (41_frame_encoder.md R102): the simulation sink always succeeds. -/
def State.sendFrameSim (r g b : Nat) (s : State) : State :=
  let t := s.encFrame r g b
  (t.simWrite t.out t.latched).clearOut

/-- `SENDFRAME r, g, b` on the device sink under the sink's `answer` (41_frame_encoder.md R102, 60_exceptions.md
R182): one `write` of the whole buffer; a failure is a fatal `WriteFailure` that records the snapshots. -/
def State.sendFrameWith (r g b : Nat) (answer : SinkAnswer) (s : State) : State :=
  let t := s.encFrame r g b
  let u := (t.deviceWriteWith t.out answer).clearOut
  match answer with
  | .ok => u
  | .fail _ => u.raise (.writeFailure t.out)

/-- `SENDFRAME r, g, b` (41_frame_encoder.md R102). Behind the partial frame of a failed bare `WRITE` it is appended as
anywhere else, so that it starts at no multiple of 72: the model's choice (20_memory.md R46; log 37). -/
def State.sendFrame (r g b : Nat) (s : State) : State :=
  if s.simulate then s.sendFrameSim r g b else s.afterSinkAnswer.sendFrameWith r g b s.sinkAnswer

def execEncframe (r g b : Nat) (s : State) : StepOutcome := asRender s (.next (s.encFrame r g b))

/-- `SENDFRAME` (41_frame_encoder.md R102): under `SIMULATE`, or on a device that has been initialised, which
70_reset_and_hazards.md R213 asks for before R102 holds (log 20). It runs at any place of a run (log 42). -/
def execSendframe (r g b : Nat) (s : State) : StepOutcome :=
  asRender s (guardSend true .sendframeBeforeInit s (.next (s.sendFrame r g b)))

/-- The value `DECFRAME` returns (41_frame_encoder.md R104). -/
def decframeResult (snapshots : List Byte) : Result :=
  match decFrameFun linePins snapshots with
  | some f => .frame f
  | none => .invalid

/-- `DECFRAME s` (41_frame_encoder.md R104): no agent performs it, so it has a value in every state; it reads and
writes no register. -/
def execDecframe (snapshots : List Byte) (s : State) : StepOutcome :=
  .next (s.returning (decframeResult snapshots))

end Sys2Proof.Machine
end

