-- ==== Sys2Proof/Machine/Compositor.lean ====
section
/-! DEFINITION. The AnimationEngine (42_animation_engine.md): `UNPACK`, `TICK.CPULOAD`, `TICK.CYCLE`, `TICK.PULSE`,
`STEP.STATIC`. A tick is the frame it returns and the state it leaves. -/

namespace Sys2Proof.Machine

/-! CpuLoad. -/

/-- `RENDERED_LOAD` moved by at most 1 toward the value read (42_animation_engine.md R118). -/
def follow (rendered smoothed : Nat) : Nat :=
  if rendered < smoothed then rendered + 1 else if smoothed < rendered then rendered - 1 else rendered

/-- `t_rate` (42_animation_engine.md R118, R120). -/
def tRate (smoothed : Nat) : Nat := max tRateMin ((loadMax - smoothed) / tRateDiv)

/-- The blue wobble for a value of the sine (42_animation_engine.md R118). -/
def blueOf (sin : Rat) : Nat := trunc (beatAmp * (sin + 1))

/-- The throb level for a value of the sine (42_animation_engine.md R118). -/
def levelOf (sin : Rat) : Nat := throbBase + trunc (throbAmp * (sin + 1))

/-- `blue` of a CpuLoad tick. -/
def State.cpuBlue (s : State) : Nat := if s.beat then blueOf (sine s.tickBeat beatDiv) else 0

/-- `level` of a CpuLoad tick whose load read was `smoothed`. -/
def State.cpuLevel (smoothed : Nat) (s : State) : Nat :=
  if s.throb then levelOf (sine s.tickThrob (tRate smoothed)) else throbOffLevel

/-- The gradient of R and G for a level and a rendered load (42_animation_engine.md R118, R130: product first). -/
def gradient (level rendered blue : Nat) : Frame :=
  ⟨level * rendered / loadMax, level * (loadMax - rendered) / loadMax, blue⟩

/-- The frame of `TICK.CPULOAD` (42_animation_engine.md R118): the one read of the load cell serves the move and
`t_rate`. -/
def State.cpuFrame (s : State) : Frame :=
  gradient (s.cpuLevel s.readLoadCell) (follow s.renderedLoad s.readLoadCell) s.cpuBlue

/-- The state after `TICK.CPULOAD` (42_animation_engine.md R118, R129). -/
def State.cpuTick (s : State) : State :=
  { s with
    renderedLoad := follow s.renderedLoad s.readLoadCell
    tickBeat := s.tickBeat + 1
    tickThrob := s.tickThrob + 1 }

/-! ColorCycle. -/

/-- One channel interpolated at a step, then scaled by `LEVEL / 10` (42_animation_engine.md R121). -/
def mixChannel (c1 c2 : Byte) (step : Nat) : Nat :=
  (c1.toNat * (ccSteps - step) + c2.toNat * step) / ccSteps * cycleLevel / cycleLevelDen

/-- A whole colour interpolated at a step. -/
def mixColor (c1 c2 : Rgb) (step : Nat) : Frame :=
  ⟨mixChannel c1.r c2.r step, mixChannel c1.g c2.g step, mixChannel c1.b c2.b step⟩

/-- The frame of `TICK.CYCLE` (42_animation_engine.md R121). -/
def State.cycleFrame (s : State) : Frame :=
  mixColor (readPalette s.ccIndex) (readPalette ((s.ccIndex + 1) % paletteLen)) s.ccStep

/-- The state after `TICK.CYCLE` (42_animation_engine.md R121): the step advances after the frame is computed; at 128
it is 0 again and the index advances cyclically. -/
def State.cycleTick (s : State) : State :=
  { s with
    ccStep := if s.ccStep + 1 = ccSteps then 0 else s.ccStep + 1
    ccIndex := if s.ccStep + 1 = ccSteps then (s.ccIndex + 1) % paletteLen else s.ccIndex }

/-! Pulse. -/

/-- `trunc(channel * lvl)` with `lvl = (sin + 1) / 2` (42_animation_engine.md R123). -/
def pulseChannel (channel : Nat) (sin : Rat) : Nat := trunc (channel * ((sin + 1) / 2))

/-- The three channels of a colour under one value of the sine. -/
def pulseColor (c : BitVec 24) (sin : Rat) : Frame :=
  ⟨pulseChannel (unpackColor c).r sin, pulseChannel (unpackColor c).g sin, pulseChannel (unpackColor c).b sin⟩

/-- The frame of `TICK.PULSE` (42_animation_engine.md R123). -/
def State.pulseFrame (s : State) : Frame := pulseColor s.color (sine s.tickPulse s.speed)

/-- The state after `TICK.PULSE` (42_animation_engine.md R123). -/
def State.pulseTick (s : State) : State := { s with tickPulse := s.tickPulse + 1 }

/-! StaticColor. -/

/-- Does the next `STEP.STATIC` send a frame (42_animation_engine.md R125). -/
def State.staticSends (s : State) : Bool := s.stPhase == .send1 || s.stPhase == .send2

/-- A send of the static colour, then the phase `after` if the sink took it (42_animation_engine.md R125; after a
failure the phase stays, 95_test_vectors.md P6). -/
def State.sendStatic (after : StPhase) (s : State) : State :=
  let f := unpackColor s.color
  let t := s.sendFrame f.r f.g f.b
  if t.fault.isSome then t else { t with stPhase := after }

/-- The state after `STEP.STATIC` from a phase other than `Done`; at `Done` nothing is left to do
(42_animation_engine.md R125). -/
def State.staticStep (s : State) : State :=
  match s.stPhase with
  | .send1 => s.sendStatic .pause
  | .pause => { s with stPhase := .send2 }
  | .send2 => s.sendStatic .done
  | .done => s

/-! Meanings. A tick operation or a static step issued while `MODE` selects another mode runs all the same and writes
that mode's state: the model's choice, since no run issues one there (10_state.md R39, 42_animation_engine.md R115;
log 36). -/

/-- `UNPACK c` (42_animation_engine.md R116). -/
def execUnpack (c : BitVec 24) (s : State) : StepOutcome :=
  asRender s (.next (s.returning (.frame (unpackColor c))))

/-- `TICK.CPULOAD` (42_animation_engine.md R118), whatever `MODE` is (log 36). -/
def execTickCpuload (s : State) : StepOutcome := asRender s (.next (s.cpuTick.returning (.frame s.cpuFrame)))

/-- `TICK.CYCLE` (42_animation_engine.md R121), whatever `MODE` is (log 36). -/
def execTickCycle (s : State) : StepOutcome := asRender s (.next (s.cycleTick.returning (.frame s.cycleFrame)))

/-- `TICK.PULSE` (42_animation_engine.md R123), whatever `MODE` is (log 36). -/
def execTickPulse (s : State) : StepOutcome := asRender s (.next (s.pulseTick.returning (.frame s.pulseFrame)))

/-- `STEP.STATIC` (42_animation_engine.md R125), whatever `MODE` is (log 36): "no step" at `Done` (log 24), and no send
to a device that has not been initialised (70_reset_and_hazards.md R213; log 20). -/
def execStepStatic (s : State) : StepOutcome :=
  asRender s
    (if s.stPhase = .done then .fault .staticDone
    else guardSend s.staticSends .stepStaticBeforeInit s (.next s.staticStep))

end Sys2Proof.Machine
end

