-- ==== Sys2Proof/Machine/Scheduler.lean ====
section
/-! DEFINITION. Scheduler, sink and host (44_scheduler_and_sink.md): `CONFIG`, `INIT`, `RUNTICK`, `WRITE`, `SIMWRITE`,
`TEARDOWN`, `EXIT`, `STOPREQ`. -/

namespace Sys2Proof.Machine

/-! CONFIG. -/

/-- An illegal record: `ConfigurationInvalid` with an offending option (60_exceptions.md R184; log 26). -/
def State.rejectConfig (illegal : List OptionName) (s : State) : State :=
  s.afterDraw.raise (.configurationInvalid (offendingOption (Config.whichOption s.draws) illegal))

/-- The state after the one `CONFIG` of a run (44_scheduler_and_sink.md R160). -/
def State.configure (record : ConfigRecord) (s : State) : State :=
  if illegalOptions record = [] then s.latchConfig record else s.rejectConfig (illegalOptions record)

/-- `CONFIG rec` (44_scheduler_and_sink.md R160): it happens exactly once. That it is still accepted after other
operations were issued, as long as its place in the run has not passed, is the model's choice (10_state.md R26,
20_memory.md R56; log 22). -/
def execConfig (record : ConfigRecord) (s : State) : StepOutcome :=
  asRender s (if s.phase = .awaitConfig then .next (s.configure record) else .refused .configTwice)

/-! INIT. -/

/-- Where the run goes after `INIT`: on to the sampler, if it was waiting for the device. An `INIT` issued before
`CONFIG` leaves the place at `CONFIG`, which may then still follow: the model's choice (log 22). -/
def phaseAfterInit : RunPhase → RunPhase
  | .awaitOpen => .awaitSampler
  | .awaitInit => .awaitSampler
  | p => p

/-- The state after `enter_bitbang_mode(BITBANG_MASK)` under the device's `answer` (44_scheduler_and_sink.md R162,
60_exceptions.md R181); what the lines do then is not in any source (70_reset_and_hazards.md R214). -/
def State.initWith (answer : Bool) (s : State) : State :=
  let t := (s.observe (.enterBitbang Config.bitbangMask answer)).freeWires
  if answer then { t with inited := true, phase := phaseAfterInit s.phase }
  else t.raise (.deviceUnavailable .enteringBitbang)

/-- `INIT` (44_scheduler_and_sink.md R162): skipped under `SIMULATE`, where only the run goes on; once in a run (log 21).
That a first one issued after a bare `SIMWRITE` or after a `TEARDOWN` still makes the call is the model's choice: the spec
has it before the first frame (20_memory.md R57, 70_reset_and_hazards.md R224; log 43). -/
def execInit (s : State) : StepOutcome :=
  asRender s
    (if s.simulate then .next { s with phase := phaseAfterInit s.phase }
    else if s.inited then .refused .initTwice
    else .next (s.afterDeviceAnswer.initWith s.deviceAnswer))

/-! RUNTICK. -/

/-- The render agent leaves the loop (44_scheduler_and_sink.md R161, R164, R171): on to `TEARDOWN`, or to `EXIT` where
there is none to perform. -/
def State.leaveLoop (s : State) : State :=
  { s with phase := if s.simulate ∨ s.phase = .awaitExit then .awaitExit else .awaitTeardown }

/-- The frame of the tick operation a mode selects (42_animation_engine.md R115); the static mode has none. -/
def State.tickFrame (s : State) : Frame :=
  match s.mode with
  | .cpuLoad => s.cpuFrame
  | .colorCycle => s.cycleFrame
  | .pulse => s.pulseFrame
  | .static => ⟨0, 0, 0⟩

/-- The state after the tick operation a mode selects. -/
def State.tickState (s : State) : State :=
  match s.mode with
  | .cpuLoad => s.cpuTick
  | .colorCycle => s.cycleTick
  | .pulse => s.pulseTick
  | .static => s

/-- The debug text of a tick, if `DEBUG` is on (44_scheduler_and_sink.md R167): observed, with no other effect. The
text is a free value at the number of events seen so far, so that it uses up no draw. -/
def State.debugTick (s : State) : State :=
  { s with events := if s.debug then s.events ++ [.debugText (Config.debugText s.events.length)] else s.events }

/-- One iteration of the render loop (44_scheduler_and_sink.md R163): in the static mode one step of it, and the loop
is left at `Done` (R171); otherwise the stop is looked at once, before the tick operation (R164), and then the frame is
computed and sent. -/
def State.runTick (s : State) : State :=
  if s.mode = .static then
    if s.staticStep.stPhase = .done then s.staticStep.leaveLoop else s.staticStep
  else if s.stop then s.leaveLoop
  else s.tickState.debugTick.sendFrame s.tickFrame.r s.tickFrame.g s.tickFrame.b

/-- Does the next `RUNTICK` send a frame. -/
def State.tickSends (s : State) : Bool :=
  if s.mode = .static then s.staticSends else !s.stop

/-- `RUNTICK` (44_scheduler_and_sink.md R163): no frame goes to the device before `INIT` has succeeded (10_state.md
R36; log 20). Issued outside the render loop it runs all the same (log 42). -/
def execRuntick (s : State) : StepOutcome :=
  asRender s (guardSend s.tickSends .runtickBeforeInit s (.next s.runTick))

/-! The sink. -/

/-- What `WRITE` returns. -/
def writeResult : SinkAnswer → Result
  | .ok => .sinkOk
  | .fail _ => .sinkFail

/-- `WRITE s` (44_scheduler_and_sink.md R165): used only when `SIMULATE` is false and `INITED` is true (log 19); it
raises nothing of its own. That it takes 72 bytes that are no frame's snapshots (30_encoding.md R73; log 38), and that it
still runs after a `WRITE` that failed (20_memory.md R41; log 37), is the model's choice. -/
def execWrite (bytes : List Byte) (s : State) : StepOutcome :=
  asRender s
    (if s.simulate then .refused .writeUnderSimulate
    else guardSend true .writeBeforeInit s
      (.next ((s.deviceWrite bytes).returning (writeResult s.sinkAnswer))))

/-- `SIMWRITE s, t` (44_scheduler_and_sink.md R166): no exception, ever. That it runs with `SIMULATE` false (log 8), and
with a `t` that is not the frame `s` encodes (log 40), with any 72 bytes (log 38) and behind the partial frame of a failed
bare `WRITE` (log 37), is the model's choice. -/
def execSimwrite (bytes : List Byte) (t : Rgb) (s : State) : StepOutcome :=
  asRender s (.next ((s.simWrite bytes t).returning .sinkOk))

/-! Shutdown and the host. -/

/-- The state after `TEARDOWN` (44_scheduler_and_sink.md R168): the device call unless `SIMULATE`; what it does to the
wires is not in any source. -/
def State.tornDown (s : State) : State :=
  { s with
    phase := .awaitExit
    events := if s.simulate then s.events else s.events ++ [.teardown]
    phy := if s.simulate then s.phy else Config.wires s.draws
    draws := if s.simulate then s.draws else s.draws + 1 }

/-- `TEARDOWN` (44_scheduler_and_sink.md R168). -/
def execTeardown (s : State) : StepOutcome := asRender s (.next s.tornDown)

/-- The exit status a code stands for (44_scheduler_and_sink.md R169). -/
def statusOf : ExitCode → Int
  | .ok => exitOk
  | .fail => exitFail

/-- The run ends with a status: all agents cease (44_scheduler_and_sink.md R169). -/
def State.endRun (status : Int) (s : State) : State :=
  { s with exitStatus := some status, samplerOn := false }.observe (.exit status)

/-- `EXIT code` (44_scheduler_and_sink.md R169); after a fatal exception only `EXIT EXIT_FAIL` (10_state.md R35). That
`EXIT 0` completes before a stop, `Done` or `TEARDOWN` (R173), and `EXIT EXIT_FAIL` without a fault, is the model's
choice (log 39). -/
def execExit (code : ExitCode) (s : State) : StepOutcome :=
  if s.ended then .fault .runEnded
  else if s.fault.isSome ∧ code = .ok then .fault .renderHalted
  else .next (s.endRun (statusOf code))

/-- `STOPREQ` (44_scheduler_and_sink.md R170): "A stop request that arrives after a fatal exception has no effect"
(60_exceptions.md R193). -/
def execStopreq (s : State) : StepOutcome :=
  whileRunning s (.next (if s.fault.isSome then s else { s with stop := true }))

end Sys2Proof.Machine
end

