-- ==== Sys2Proof/Machine/OwnOrder.lean ====
section
/-! DEFINITION. What the machine does of its own when no operation was issued to it: the order of a run
(44_scheduler_and_sink.md R161), the two steps of it that have no operation code, and the interleaving of the agents
(60_exceptions.md R197). -/

namespace Sys2Proof.Machine

/-- What the machine does next: perform an operation in a state from which the inputs that chose it were taken, take a
step that has no operation, or nothing at all. -/
inductive Action where
  | perform (i : Instr) (t : State)
  | silent (t : State)
  | stop (f : Fault)
  deriving DecidableEq, Repr, Inhabited

/-- The opening of the device under its `answer` (44_scheduler_and_sink.md R161 (2), 60_exceptions.md R181). -/
def State.openWith (answer : Bool) (s : State) : State :=
  let t := s.observe (.openDevice answer)
  if answer then { t with phase := if s.inited then .awaitSampler else .awaitInit }
  else t.raise (.deviceUnavailable .opening)

/-- The start of the sampler agent (44_scheduler_and_sink.md R161 (4)). -/
def State.startSampler (s : State) : State := { s with samplerOn := true, phase := .looping }

/-- The next step of the render agent (44_scheduler_and_sink.md R161). -/
def renderAction (s : State) : Action :=
  match s.phase with
  | .awaitConfig => .perform (.config s.hostRecord) s.afterHostRecord
  | .awaitOpen => .silent (s.afterDeviceAnswer.openWith s.deviceAnswer)
  | .awaitInit => .perform .init s
  | .awaitSampler => .silent s.startSampler
  | .looping => .perform .runtick s
  | .awaitTeardown => .perform .teardown s
  | .awaitExit => .perform (.exit .ok) s

/-- The next step of the machine: none after `EXIT` (44_scheduler_and_sink.md R169); `EXIT EXIT_FAIL` after a fatal
exception (60_exceptions.md R185, R189); otherwise a step of the agent whose turn it is, where a sampler that has not
been started leaves its turn to the render agent. -/
def nextAction (s : State) : Action :=
  if s.ended then .stop .runEnded
  else if s.fault.isSome then .perform (.exit .fail) s
  else match s.nextAgent with
    | .render => renderAction s.afterNextAgent
    | .sampler => if s.samplerOn then .perform .smploop s.afterNextAgent else renderAction s.afterNextAgent
    | .host => .perform .stopreq s.afterNextAgent

/-- Where no bytes are issued the machine goes its own way; otherwise the first issued operation is fetched and its
bytes are taken off (log 15). -/
def fetch (s : State) : Except DecodeError (Instr × State) :=
  match decode s.issue with
  | .ok (i, rest) => .ok (i, { s with issue := rest })
  | .error e => .error e

end Sys2Proof.Machine
end

