-- ==== Sys2Proof/Machine/Sampler.lean ====
section
/-! DEFINITION. The LoadSampler (43_load_sampler.md): `SAMPLE`, `SMPLOOP`. -/

namespace Sys2Proof.Machine

/-- `busy` of a counter record (43_load_sampler.md R150). -/
def busyOf (c : Counters) : Nat := c.user + c.nice + c.system

/-- `total` of a counter record (43_load_sampler.md R150). -/
def totalOf (c : Counters) : Nat := busyOf c + c.idle

/-- The second read of a sample: the first, grown (43_load_sampler.md R150 (a); log 9). -/
def grownBy (a d : Counters) : Counters := ⟨a.user + d.user, a.nice + d.nice, a.system + d.system, a.idle + d.idle⟩

/-- The percentage of two reads; `none` where no counter moved (43_load_sampler.md R150, R152). -/
def loadPercent (a b : Counters) : Option Nat :=
  if totalOf b - totalOf a = 0 then none else some (100 * (busyOf b - busyOf a) / (totalOf b - totalOf a))

/-- What a sample answers: a percentage, no value, or `MetricSourceUnavailable` where either read failed
(43_load_sampler.md R150, 60_exceptions.md R183). -/
def sampleResult (m : MetricAnswer) : Result :=
  match m.first, m.growth with
  | some a, some d =>
    match loadPercent a (grownBy a d) with
    | some p => .percent p
    | none => .noValue
  | _, _ => .raised .metricSourceUnavailable

/-- The sampler keeps a result: a percentage goes to its own state and to the load cell; anything else writes nothing
(43_load_sampler.md R151, R152, 60_exceptions.md R190). -/
def State.keepSample (x : Result) (s : State) : State :=
  match x with
  | .percent p => { s with smpLast := p, smpHave := true }.writeLoadCell p
  | .nothing | .frame _ | .invalid | .noValue | .raised _ | .sinkOk | .sinkFail => s

/-- `SAMPLE` (43_load_sampler.md R150): it returns its result; `MetricSourceUnavailable` is not fatal and sets no
fault. Issued before the sampler agent has been started it runs all the same, the model's choice (60_exceptions.md R197;
log 41). -/
def execSample (s : State) : StepOutcome :=
  whileRunning s (.next (s.afterMetricAnswer.returning (sampleResult s.metricAnswer)))

/-- `SMPLOOP` (43_load_sampler.md R151). Issued before the sampler agent has been started it runs all the same, the
model's choice (60_exceptions.md R197; log 41). -/
def execSmploop (s : State) : StepOutcome :=
  whileRunning s (.next (s.afterMetricAnswer.keepSample (sampleResult s.metricAnswer)))

end Sys2Proof.Machine
end

