-- ==== Sys2Proof/Machine/Dispatch.lean ====
section
/-! DEFINITION. One arm per operation of 30_encoding.md R70. -/

namespace Sys2Proof.Machine

def exec (i : Instr) (s : State) : Host.Outcome State Fault Refusal :=
  match i with
  | .setd b => Sys2Proof.Machine.execSetd b s
  | .clkh => Sys2Proof.Machine.execClkh s
  | .clkl => Sys2Proof.Machine.execClkl s
  | .emit => Sys2Proof.Machine.execEmit s
  | .encbit b => Sys2Proof.Machine.execEncbit b s
  | .encbyte v => Sys2Proof.Machine.execEncbyte v s
  | .encframe r g b => Sys2Proof.Machine.execEncframe r g b s
  | .sendframe r g b => Sys2Proof.Machine.execSendframe r g b s
  | .decframe bytes => Sys2Proof.Machine.execDecframe bytes s
  | .tickCpuload => Sys2Proof.Machine.execTickCpuload s
  | .tickCycle => Sys2Proof.Machine.execTickCycle s
  | .tickPulse => Sys2Proof.Machine.execTickPulse s
  | .stepStatic => Sys2Proof.Machine.execStepStatic s
  | .unpack c => Sys2Proof.Machine.execUnpack c s
  | .sample => Sys2Proof.Machine.execSample s
  | .smploop => Sys2Proof.Machine.execSmploop s
  | .config record => Sys2Proof.Machine.execConfig record s
  | .init => Sys2Proof.Machine.execInit s
  | .runtick => Sys2Proof.Machine.execRuntick s
  | .write bytes => Sys2Proof.Machine.execWrite bytes s
  | .simwrite bytes t => Sys2Proof.Machine.execSimwrite bytes t s
  | .teardown => Sys2Proof.Machine.execTeardown s
  | .exit code => Sys2Proof.Machine.execExit code s
  | .stopreq => Sys2Proof.Machine.execStopreq s

end Sys2Proof.Machine
end

