-- ==== Sys2Proof/Machine/Step.lean ====
section
/-! DEFINITION. One step of the machine, and where an operation is put so that the next step performs it. -/

namespace Sys2Proof.Machine

/-- With no bytes issued, the machine's own next action (Machine/OwnOrder.lean); otherwise the operation that the
issued bytes begin with, in the state without its bytes (log 15). -/
def step (s : State) : Host.Outcome State Fault Refusal :=
  match s.issue with
  | [] =>
    match nextAction s with
    | .perform i t => exec i t
    | .silent t => .next t
    | .stop f => .fault f
  | _ :: _ =>
    match fetch s with
    | .ok (i, t) => exec i t
    | .error e => .refused (.undecodable e)

/-- `s` with the operation of a table word issued, and nothing else changed: the very next step performs it (log 15). -/
def State.withFetchWord (s : State) (nbits w : Nat) : State := { s with issue := tableOperation nbits w }

end Sys2Proof.Machine
end

