-- ==== Sys2Proof/Safety.lean ====
section
/-! DEFINITION. The terms claims are made in: several operations in a row, the invariant of every state, and the
invariant of a machine that is left to its own order. -/

namespace Sys2Proof.Machine

/-- The render agent can perform an operation: no `EXIT`, no fatal exception so far (10_state.md R35,
44_scheduler_and_sink.md R169). -/
def State.Ready (s : State) : Prop := s.exitStatus = none ∧ s.fault = none

/-- The 72 snapshots of the frame with operands `r`, `g`, `b`, each masked to 8 bits, encoded from the line state of `s`
(`EncFrame`, 41_frame_encoder.md R100). -/
def State.frameBytes (r g b : Nat) (s : State) : List Byte :=
  (encFrameFun linePins ⟨trunc8 r, trunc8 g, trunc8 b⟩ s.ls).1

/-- The line state after that frame. -/
def State.frameLine (r g b : Nat) (s : State) : Byte :=
  (encFrameFun linePins ⟨trunc8 r, trunc8 g, trunc8 b⟩ s.ls).2

/-- Operations performed one after the other, up to the first stop. -/
def execMany : List Instr → State → StepOutcome
  | [], s => .next s
  | i :: is, s =>
    match exec i s with
    | .next t => execMany is t
    | .fault f => .fault f
    | .refused r => .refused r

/-- Is a thing seen the debug text of a tick (44_scheduler_and_sink.md R167). -/
def Event.isDebugText : Event → Bool
  | .debugText _ => true
  | .openDevice _ | .enterBitbang _ _ | .write _ _ | .simWrite _ _ _ | .teardown | .message _ _ | .exit _ => false

/-- What holds in every state that operations lead to from reset, whoever issues them: reserved bits 0 (10_state.md
R13), `POS` the length of `OUT` (R17, R18), `SPEED` at least 1 (R20), the percentages at most 100 (R28, R29, R37),
ColorCycle's state in range (R32), the two CpuLoad counters equal (R30), the sampler's last value the one in the cell
(R37). -/
structure State.Inv (s : State) : Prop where
  reserved : reservedOf linePins s.ls = 0
  position : s.pos = s.out.length
  speed : 1 ≤ s.speed
  smoothed : s.smoothedLoad ≤ 100
  rendered : s.renderedLoad ≤ 100
  last : s.smpLast ≤ 100
  index : s.ccIndex < 6
  cycleStep : s.ccStep < 128
  counters : s.tickBeat = s.tickThrob
  sampled : s.smpHave = true → s.smpLast = s.smoothedLoad
  unsampled : s.smpHave = false → s.smoothedLoad = 0 ∧ s.smpLast = 0

/-- The phases before the render loop (44_scheduler_and_sink.md R161 (1) to (4)). -/
def RunPhase.beforeLoop : RunPhase → Bool
  | .awaitConfig => true
  | .awaitOpen => true
  | .awaitInit => true
  | .awaitSampler => true
  | .looping => false
  | .awaitTeardown => false
  | .awaitExit => false

/-- The phases in which the device has been initialised, unless `SIMULATE` (44_scheduler_and_sink.md R161). -/
def RunPhase.afterInit : RunPhase → Bool
  | .awaitConfig => false
  | .awaitOpen => false
  | .awaitInit => false
  | .awaitSampler => true
  | .looping => true
  | .awaitTeardown => true
  | .awaitExit => true

/-- How many frames the static mode has sent at a phase of it (42_animation_engine.md R125). -/
def StPhase.framesSent : StPhase → Nat
  | .send1 => 0
  | .pause => 1
  | .send2 => 1
  | .done => 2

/-- What holds in every state of a machine that follows its own order (44_scheduler_and_sink.md R161): the invariant
of every state; nothing issued; the encoder at rest with an empty buffer (10_state.md R14, R17, R18); whole frames only
on `OUTSTREAM`, unless a `write` has failed (20_memory.md R46, 60_exceptions.md R191); no frame before the loop; the
device initialised once and before the loop, never under `SIMULATE` (10_state.md R36); the unselected modes at their
reset values (10_state.md R39); the static mode's frames counted (42_animation_engine.md R126); each fatal cause where
it can arise (60_exceptions.md R180); the loop left only after a stop or at `Done`, `TEARDOWN` before `EXIT 0` unless `SIMULATE`, and
the exit status 0 only without a fault (44_scheduler_and_sink.md R173). -/
structure State.RunInv (s : State) : Prop where
  inv : s.Inv
  nothingIssued : s.issue = []
  clockLow : clockOf linePins s.ls = false
  empty : s.out = []
  whole : (∀ x, s.fault ≠ some (.writeFailure x)) → 72 ∣ s.outStream.length
  noFrameYet : s.phase.beforeLoop = true → s.outStream = [] ∧ s.stPhase = .send1
  initialised : s.phase.afterInit = true → s.simulate = false → s.inited = true
  notInitialised : s.phase.afterInit = false → s.inited = false
  unconfigured : s.phase = .awaitConfig → s.simulate = false ∧ s.mode = .cpuLoad ∧ s.renderedLoad = 0 ∧ s.tickBeat = 0
  deviceRun : s.phase = .awaitOpen ∨ s.phase = .awaitInit ∨ s.phase = .awaitTeardown → s.simulate = false
  simulated : s.simulate = true → s.inited = false
  cpuUnselected : s.mode ≠ .cpuLoad → s.renderedLoad = 0 ∧ s.tickBeat = 0
  cycleUnselected : s.mode ≠ .colorCycle → s.ccIndex = 0 ∧ s.ccStep = 0
  pulseUnselected : s.mode ≠ .pulse → s.tickPulse = 0
  staticUnselected : s.mode ≠ .static → s.stPhase = .send1
  staticFrames : s.mode = .static → s.fault = none → s.outStream.length = 72 * s.stPhase.framesSent
  badConfig : ∀ o, s.fault = some (.configurationInvalid o) → s.phase = .awaitConfig
  noDevice : ∀ d, s.fault = some (.deviceUnavailable d) → s.phase = .awaitOpen ∨ s.phase = .awaitInit
  failedWrite : ∀ x, s.fault = some (.writeFailure x) → s.phase = .looping ∧ s.simulate = false
  loopLeft : s.phase = .awaitTeardown ∨ s.phase = .awaitExit →
    (s.mode = .static → s.stPhase = .done) ∧ (s.mode ≠ .static → s.stop = true)
  tornDownOnce : s.phase = .awaitExit → s.simulate = false → Event.teardown ∈ s.events
  exited : ∀ x, s.exitStatus = some x →
    (x = 0 ∧ s.fault = none ∧ s.phase = .awaitExit) ∨ (x = exitFail ∧ s.fault ≠ none)

end Sys2Proof.Machine
end

