-- ==== Sys2Proof/Certificates/Slice0/Obligations.lean ====
section
/-! DEFINITION. The statements for the provers. Each docstring names the rule of spec/ it is about. A statement "at a
state where the render agent can move" has the hypothesis `s.Ready`: no `EXIT` and no fatal exception so far. -/

open Sys2Proof Sys2Proof.Machine

/-! Encoding and stepping. -/

/-- Decoding the bytes of a well-formed operation gives it back, whatever follows (30_encoding.md R70 for the codes;
the operand bytes are the model's own, log 16). -/
def Obligations.DecodeOfEncode : Prop :=
  ∀ (i : Instr) (rest : List Byte), i.wellFormed = true → decode (encode i ++ rest) = .ok (i, rest)

/-- Bytes that decode are the bytes of the operation they decode to, and that operation is well formed: each operation
has one form (log 16). -/
def Obligations.EncodeOfDecode : Prop :=
  ∀ (bytes rest : List Byte) (i : Instr), decode bytes = .ok (i, rest) →
    i.wellFormed = true ∧ encode i ++ rest = bytes

/-- The operation map of 30_encoding.md R70, and: a code that is not in it names no operation. -/
def Obligations.CodesOutsideTheMapAreRefused : Prop :=
  (∀ (v r g b : Nat) (d : Bool) (s : List Byte) (c : BitVec 24) (cfg : ConfigRecord) (t : Rgb) (e : ExitCode),
    [Instr.setd d, .clkh, .clkl, .emit, .encbit d, .encbyte v, .encframe r g b, .sendframe r g b, .decframe s,
      .tickCpuload, .tickCycle, .tickPulse, .stepStatic, .unpack c, .sample, .smploop, .config cfg, .init, .runtick,
      .write s, .simwrite s t, .teardown, .exit e, .stopreq].map Instr.opcode =
    [0x01, 0x02, 0x03, 0x04, 0x08, 0x09, 0x10, 0x11, 0x12, 0x20, 0x21, 0x22, 0x23, 0x24, 0x30, 0x31, 0x40, 0x41, 0x42,
      0x43, 0x44, 0x45, 0x46, 0x47]) ∧
  ∀ (code : Byte) (bytes : List Byte),
    decode (code :: bytes) = .error (.noSuchOperation code) ↔
      code.toNat ∉ [0x01, 0x02, 0x03, 0x04, 0x08, 0x09, 0x10, 0x11, 0x12, 0x20, 0x21, 0x22, 0x23, 0x24, 0x30, 0x31,
        0x40, 0x41, 0x42, 0x43, 0x44, 0x45, 0x46, 0x47]

/-- A few words of spec/opcode_table.json, one of each unit, decode to their rows (30_encoding.md R70 for the codes).
That the zero bytes after a code are operands 0, a transaction of 72 zeros or `EXIT_OK` is the model's choice: no source
lays operands out (log 16). -/
def Obligations.TableWordsDecode : Prop :=
  decodeTableWord 8 0x02 = some .clkh ∧ decodeTableWord 8 0x04 = some .emit ∧
  decodeTableWord 8 0x09 = some (.encbyte 0) ∧ decodeTableWord 8 0x10 = some (.encframe 0 0 0) ∧
  decodeTableWord 8 0x20 = some .tickCpuload ∧ decodeTableWord 8 0x31 = some .smploop ∧
  decodeTableWord 8 0x42 = some .runtick ∧ decodeTableWord 8 0x43 = some (.write (List.replicate 72 0)) ∧
  decodeTableWord 8 0x46 = some (.exit .ok) ∧ decodeTableWord 8 0x47 = some .stopreq ∧
  decodeTableWord 8 0x00 = none

/-- A step runs the decoded operation: when the issued bytes decode to `i`, the step is `exec` of `i` in the state
whose issued bytes are the rest (log 15). -/
def Obligations.StepRunsIssuedOperation : Prop :=
  ∀ (s : State) (i : Instr) (rest : List Byte), decode s.issue = .ok (i, rest) →
    step s = exec i { s with issue := rest }

/-- The order of a run (44_scheduler_and_sink.md R161, 60_exceptions.md R185, R189, R197) when nothing is issued: the
render agent's operations by its place in the run, the sampler's and the host's when it is their turn, `EXIT
EXIT_FAIL` after a fatal exception, nothing after `EXIT`. The opening of the device writes nothing but the call seen and
the place in the run, or is a fatal `DeviceUnavailable` with its message. `u` is the state whose input "which agent
moves" was taken. The places in the run, the free choice of the agent and the two steps without a code are the model's
(log 14, log 18, log 34). -/
def Obligations.OwnOrderOfARun : Prop :=
  ∀ s : State, s.issue = [] →
    let u := s.afterNextAgent
    (s.exitStatus ≠ none → step s = .fault .runEnded) ∧
    (s.exitStatus = none → s.fault ≠ none → step s = exec (.exit .fail) s) ∧
    (s.Ready → s.nextAgent = .sampler → s.samplerOn = true → step s = exec .smploop u) ∧
    (s.Ready → s.nextAgent = .host → step s = exec .stopreq u) ∧
    (s.Ready → (s.nextAgent = .render ∨ (s.nextAgent = .sampler ∧ s.samplerOn = false)) →
      (s.phase = .awaitConfig → step s = exec (.config u.hostRecord) u.afterHostRecord) ∧
      (s.phase = .awaitOpen →
        (u.deviceAnswer = true → step s = .next { u.afterDeviceAnswer with
          phase := if s.inited then .awaitSampler else .awaitInit
          events := s.events ++ [.openDevice true] }) ∧
        (u.deviceAnswer = false → step s = .next { u.afterDeviceAnswer with
          fault := some (.deviceUnavailable .opening)
          events := s.events ++ [.openDevice false,
            .message (.deviceUnavailable .opening) (Config.messageText (.deviceUnavailable .opening))] })) ∧
      (s.phase = .awaitInit → step s = exec .init u) ∧
      (s.phase = .awaitSampler → step s = .next { u with samplerOn := true, phase := .looping }) ∧
      (s.phase = .looping → step s = exec .runtick u) ∧
      (s.phase = .awaitTeardown → step s = exec .teardown u) ∧
      (s.phase = .awaitExit → step s = exec (.exit .ok) u))

/-! LineEncoder. -/

/-- 40_line_encoder.md R80: `SETD b` completes, DATA is `b`, CLOCK and the reserved bits are unchanged, and so is the
rest of the machine. -/
def Obligations.SetdWritesDataOnly : Prop :=
  ∀ (s : State) (b : Bool), s.Ready →
    ∃ t, exec (.setd b) s = .next t ∧
      t.ls = (if b then s.ls ||| linePins.dataMask else s.ls &&& ~~~linePins.dataMask) ∧
      dataOf linePins t.ls = b ∧ clockOf linePins t.ls = clockOf linePins s.ls ∧
      reservedOf linePins t.ls = reservedOf linePins s.ls ∧ t = { s with ls := t.ls }

/-- 40_line_encoder.md R81, R82: `CLKH` sets CLOCK, `CLKL` clears it; DATA and the reserved bits are unchanged, and so
is the rest of the machine. -/
def Obligations.ClockOperationsWriteClockOnly : Prop :=
  ∀ s : State, s.Ready →
    (∃ t, exec .clkh s = .next t ∧ t.ls = s.ls ||| linePins.clockMask ∧ clockOf linePins t.ls = true ∧
      dataOf linePins t.ls = dataOf linePins s.ls ∧ reservedOf linePins t.ls = reservedOf linePins s.ls ∧
      t = { s with ls := t.ls }) ∧
    (∃ t, exec .clkl s = .next t ∧ t.ls = s.ls &&& ~~~linePins.clockMask ∧ clockOf linePins t.ls = false ∧
      dataOf linePins t.ls = dataOf linePins s.ls ∧ reservedOf linePins t.ls = reservedOf linePins s.ls ∧
      t = { s with ls := t.ls })

/-- 40_line_encoder.md R83: `EMIT` appends the line state, even when it has not changed, and counts it; nothing else
changes. That the count goes on at 72 and above is the model's choice: 10_state.md R18 keeps `POS` at most 72, and says
nothing of a bare `EMIT` there (log 25). -/
def Obligations.EmitAppendsLineState : Prop :=
  ∀ s : State, s.Ready → exec .emit s = .next { s with out := s.out ++ [s.ls], pos := s.pos + 1 }

/-- 40_line_encoder.md R84: `ENCBIT b` appends the three snapshots of the function `EncBit` and leaves its line state;
CLOCK ends low and DATA is `b`; from the resting state the triplet is `0 C 0` or `D B D` whatever DATA was. That the
count goes on past 72 is the model's choice, against 10_state.md R18 (log 25). -/
def Obligations.EncbitAppendsTriplet : Prop :=
  ∀ (s : State) (b : Bool), s.Ready →
    let C := linePins.clockMask
    let D := linePins.dataMask
    let d := (s.ls &&& ~~~D) ||| (if b then D else 0)
    exec (.encbit b) s = .next { s with
      ls := d &&& ~~~C
      out := s.out ++ [d, d ||| C, d &&& ~~~C]
      pos := s.pos + 3 } ∧
    clockOf linePins (d &&& ~~~C) = false ∧ dataOf linePins (d &&& ~~~C) = b ∧
    (resting linePins s.ls = true →
      [d, d ||| C, d &&& ~~~C] = if b then [D, D ||| C, D] else [0, C, 0])

/-- 40_line_encoder.md R85, R86: `ENCBYTE v` from any line state appends exactly 24 snapshots; the DATA bit of triplet
`i` is bit `7 - i` of the low 8 bits of `v`; CLOCK is high in snapshot 1 of each triplet only, except that the first
snapshot shows the CLOCK bit found at entry; the reserved bits are those found; it ends with CLOCK low and DATA the last
bit sent; nothing but `LS`, `OUT`, `POS` changes. That the count goes on past 72 is the model's choice, against
10_state.md R18 (log 25). -/
def Obligations.EncbyteSendsEachBit : Prop :=
  ∀ (s : State) (v : Nat), s.Ready →
    ∃ t snapshots, exec (.encbyte v) s = .next t ∧
      t = { s with ls := t.ls, out := s.out ++ snapshots, pos := s.pos + 24 } ∧ snapshots.length = 24 ∧
      (∀ j x, snapshots[j]? = some x →
        dataOf linePins x = v.testBit (7 - j / 3) ∧
        clockOf linePins x = (decide (j % 3 = 1) || (decide (j = 0) && clockOf linePins s.ls)) ∧
        reservedOf linePins x = reservedOf linePins s.ls) ∧
      clockOf linePins t.ls = false ∧ dataOf linePins t.ls = v.testBit 0 ∧
      reservedOf linePins t.ls = reservedOf linePins s.ls

/-- 40_line_encoder.md R87: in the output of an `ENCBYTE` or an `ENCFRAME` from the resting state at most one wire
changes between consecutive snapshots, DATA changes only while CLOCK is low on both sides, and DATA is the same
throughout a pulse of CLOCK. -/
def Obligations.OneWireChangesAtATime : Prop :=
  ∀ (s : State) (v r g b : Nat), s.Ready → resting linePins s.ls = true → s.out = [] →
    ∀ i ∈ [Instr.encbyte v, Instr.encframe r g b], ∃ t, exec i s = .next t ∧
      ∀ k x y, t.out[k]? = some x → t.out[k + 1]? = some y →
        (clockOf linePins x = clockOf linePins y ∨ dataOf linePins x = dataOf linePins y) ∧
        (dataOf linePins x ≠ dataOf linePins y → k % 3 = 2) ∧
        (k % 3 = 2 → clockOf linePins x = false ∧ clockOf linePins y = false) ∧
        (k % 3 = 0 → clockOf linePins x = false ∧ clockOf linePins y = true) ∧
        (k % 3 = 1 → clockOf linePins x = true ∧ clockOf linePins y = false)

/-- 30_encoding.md R69: a value operand counts by its low 8 bits only; it is never clamped and never an error. -/
def Obligations.OperandsAreMasked : Prop :=
  ∀ (s : State) (v r g b : Nat),
    exec (.encbyte v) s = exec (.encbyte (v % 256)) s ∧
    exec (.encframe r g b) s = exec (.encframe (r % 256) (g % 256) (b % 256)) s ∧
    exec (.sendframe r g b) s = exec (.sendframe (r % 256) (g % 256) (b % 256)) s ∧
    (s.Ready → ∃ t, exec (.encframe r g b) s = .next t ∧
      t.frR.toNat = r % 256 ∧ t.frG.toNat = g % 256 ∧ t.frB.toNat = b % 256)

/-! FrameEncoder. -/

/-- 30_encoding.md R63, 41_frame_encoder.md R100, 70_reset_and_hazards.md R221: `ENCFRAME` puts exactly 72 snapshots
into `OUT`; snapshot `k` is the formula of R63, with the reserved bits found at entry in all of them and a CLOCK bit
found high in the first; `POS` is 72, the latch holds the masked operands, CLOCK ends low and DATA is bit 0 of blue;
nothing else changes. -/
def Obligations.EncframeFollowsTheFrameFormula : Prop :=
  ∀ (s : State) (r g b : Nat), s.Ready →
    ∃ t, exec (.encframe r g b) s = .next t ∧ t.out.length = 72 ∧
      (∀ k, k < 72 → t.out[k]? = some
        (((snapshotOf linePins ⟨trunc8 r, trunc8 g, trunc8 b⟩ k) |||
          (if k = 0 ∧ clockOf linePins s.ls = true then linePins.clockMask else 0)) ||| reservedOf linePins s.ls)) ∧
      clockOf linePins t.ls = false ∧ dataOf linePins t.ls = b.testBit 0 ∧
      reservedOf linePins t.ls = reservedOf linePins s.ls ∧
      t = { s with frR := trunc8 r, frG := trunc8 g, frB := trunc8 b, ls := t.ls, out := t.out, pos := 72 }

/-- 41_frame_encoder.md R101: from any line state the snapshots are exactly 72, those of `ENCBYTE r`, `ENCBYTE g`,
`ENCBYTE b` one after the other; from the resting state `DECFRAME` of them gives the operands back masked to 8 bits each;
so no two frames of numbers up to 255 have the same snapshots. -/
def Obligations.FrameRoundTrip : Prop :=
  (∀ (s : State) (r g b : Nat), s.Ready →
    ∃ t u, exec (.encframe r g b) s = .next t ∧
      execMany [.encbyte r, .encbyte g, .encbyte b] { s with out := [], pos := 0 } = .next u ∧ u.out = t.out ∧
      t.out.length = 72 ∧
      (resting linePins s.ls = true →
        exec (.decframe t.out) t = .next { t with ret := .frame ⟨r % 256, g % 256, b % 256⟩ })) ∧
  (∀ (s : State) (r g b r' g' b' : Nat) (t t' : State), s.Ready → resting linePins s.ls = true →
    exec (.encframe r g b) s = .next t → exec (.encframe r' g' b') s = .next t' → t.out = t'.out →
    r % 256 = r' % 256 ∧ g % 256 = g' % 256 ∧ b % 256 = b' % 256)

/-- 41_frame_encoder.md R106, 10_state.md R12, R15: what `ENCFRAME` puts out and the line state it leaves depend on no
register but CLOCK and the reserved bits at entry: not on DATA, not on the sink, the mode or the debug option. -/
def Obligations.EncframeDependsOnClockAndReservedOnly : Prop :=
  ∀ (s s' : State) (r g b : Nat), s.Ready → s'.Ready → clockOf linePins s.ls = clockOf linePins s'.ls →
    reservedOf linePins s.ls = reservedOf linePins s'.ls →
    ∃ t t', exec (.encframe r g b) s = .next t ∧ exec (.encframe r g b) s' = .next t' ∧
      t.out = t'.out ∧ t.ls = t'.ls

/-- 41_frame_encoder.md R102, 44_scheduler_and_sink.md R166: `SENDFRAME` under `SIMULATE` completes with one simulation
write of the 72 snapshots and the masked triple, and no exception. That it runs outside the render loop is the model's
choice (log 42). -/
def Obligations.SendframeUnderSimulate : Prop :=
  ∀ (s : State) (r g b : Nat), s.Ready → s.simulate = true →
    (s.frameBytes r g b).length = 72 ∧
    exec (.sendframe r g b) s = .next { s with
      frR := trunc8 r
      frG := trunc8 g
      frB := trunc8 b
      ls := s.frameLine r g b
      out := []
      pos := 0
      outStream := s.outStream ++ s.frameBytes r g b
      events := s.events ++ [.simWrite (s.frameBytes r g b) ⟨trunc8 r, trunc8 g, trunc8 b⟩
        (Config.simFormat ⟨trunc8 r, trunc8 g, trunc8 b⟩)] }

/-- 41_frame_encoder.md R102, 44_scheduler_and_sink.md R165: `SENDFRAME` on an initialised device (70_reset_and_hazards.md
R213) that takes it makes one `write` of the whole 72 snapshots, which are appended to `OUTSTREAM`; `OUT` is empty and
`POS` 0 again; the wires are those of the last snapshot; apart from the observed call and the input taken nothing else
changes. That it runs after a `TEARDOWN` (log 35), behind the partial frame of a failed bare `WRITE` (log 37) and outside
the render loop (log 42) is the model's choice. Before `INIT`: `UndescribedUsesStopByName`. -/
def Obligations.SendframeTakenByTheDevice : Prop :=
  ∀ (s : State) (r g b : Nat), s.Ready → s.simulate = false → s.inited = true → s.sinkAnswer = .ok →
    (s.frameBytes r g b).length = 72 ∧
    ∃ t, exec (.sendframe r g b) s = .next t ∧
      t.outStream = s.outStream ++ s.frameBytes r g b ∧ t.events = s.events ++ [.write (s.frameBytes r g b) .ok] ∧
      t.phy = ⟨false, b.testBit 0⟩ ∧
      t = { s.afterSinkAnswer with
        frR := trunc8 r
        frG := trunc8 g
        frB := trunc8 b
        ls := s.frameLine r g b
        out := []
        pos := 0
        outStream := t.outStream
        events := t.events
        phy := t.phy }

/-- 60_exceptions.md R182, R191, R189: a `SENDFRAME` that an initialised device refuses after `n` of the 72 bytes is a fatal
`WriteFailure`: those `n` bytes are on `OUTSTREAM`, `FAULT` records the snapshots, the line state is that of the
encoded frame with CLOCK low, the buffer is empty; and with nothing issued the next step of the machine is `EXIT
EXIT_FAIL`. The wires are left free (log 10). That it runs after a `TEARDOWN` (log 35), behind the partial frame of a failed
bare `WRITE` (log 37) and outside the render loop (log 42) is the model's choice. -/
def Obligations.SendframeRefusedByTheDevice : Prop :=
  ∀ (s : State) (r g b : Nat) (n : Fin 73), s.Ready → s.simulate = false → s.inited = true →
    s.sinkAnswer = .fail n →
    ∃ t, exec (.sendframe r g b) s = .next t ∧
      t.fault = some (.writeFailure (s.frameBytes r g b)) ∧
      t.outStream = s.outStream ++ (s.frameBytes r g b).take n ∧
      t.events = s.events ++ [.write (s.frameBytes r g b) (.fail n),
        .message (.writeFailure (s.frameBytes r g b)) (Config.messageText (.writeFailure (s.frameBytes r g b)))] ∧
      clockOf linePins t.ls = false ∧
      t = { s.afterSinkAnswer with
        frR := trunc8 r
        frG := trunc8 g
        frB := trunc8 b
        ls := s.frameLine r g b
        out := []
        pos := 0
        outStream := t.outStream
        events := t.events
        fault := t.fault
        phy := t.phy
        draws := t.draws } ∧
      (s.issue = [] → step t = exec (.exit .fail) t)

/-- 41_frame_encoder.md R104: `DECFRAME` completes in every state, writes nothing but the value it returns, and that is
the three sums of the DATA bits at the rising edges of CLOCK, if there are exactly 24, else `invalid`. An edge is a
snapshot with CLOCK 1 that is the first or follows one with CLOCK 0. -/
def Obligations.DecframeSumsRisingEdges : Prop :=
  ∀ (s : State) (snapshots : List Byte),
    let edge : Nat → Bool := fun k => clockOf linePins (snapshots.getD k 0) &&
      (k == 0 || !clockOf linePins (snapshots.getD (k - 1) 0))
    let bits := ((List.range snapshots.length).filter edge).map fun k => dataOf linePins (snapshots.getD k 0)
    let byte : Nat → Nat := fun from_ =>
      ((List.range 8).map fun j => (bits.getD (from_ + j) false).toNat * 2 ^ (7 - j)).sum
    exec (.decframe snapshots) s = .next { s with
      ret := if bits.length = 24 then .frame ⟨byte 0, byte 8, byte 16⟩ else .invalid }

/-! AnimationEngine. -/

/-- 42_animation_engine.md R116, 30_encoding.md R65: `UNPACK c` returns the three bytes of `c`, red the most significant,
and changes nothing else. -/
def Obligations.UnpackSplitsTheColor : Prop :=
  ∀ (s : State) (c : BitVec 24), s.Ready →
    exec (.unpack c) s = .next { s with ret := .frame ⟨c.toNat / 65536, c.toNat / 256 % 256, c.toNat % 256⟩ }

/-- 42_animation_engine.md R118, R129: `TICK.CPULOAD`, with the one value `l` read from the load cell serving the move
and `t_rate`; state written: `RENDERED_LOAD` and the two counters. That the sine is a rational number is the model's
(log 4), and so is that the operation runs whatever `MODE` is (log 36). -/
def Obligations.TickCpuloadResult : Prop :=
  ∀ s : State, s.Ready →
    let l := s.smoothedLoad
    let rl := if s.renderedLoad < l then s.renderedLoad + 1
      else if l < s.renderedLoad then s.renderedLoad - 1 else s.renderedLoad
    let blue := if s.beat then trunc (8 * (sine s.tickBeat 10 + 1)) else 0
    let level := if s.throb then 191 + trunc (32 * (sine s.tickThrob (max 5 ((100 - l) / 5)) + 1)) else 255
    exec .tickCpuload s = .next { s with
      renderedLoad := rl
      tickBeat := s.tickBeat + 1
      tickThrob := s.tickThrob + 1
      ret := .frame ⟨level * rl / 100, level * (100 - rl) / 100, blue⟩ }

/-- 42_animation_engine.md R119: the rendered load changes by at most 1 a tick; `n` ticks with the same value in the
load cell move it by at most `n` toward that value, where it stays; without `BEAT` blue is 0 at every tick. That the
operation runs whatever `MODE` is, is the model's choice (log 36). -/
def Obligations.CpuloadConverges : Prop :=
  ∀ (s : State) (n : Nat), s.Ready →
    ∃ t, execMany (List.replicate n .tickCpuload) s = .next t ∧ t.smoothedLoad = s.smoothedLoad ∧
      t.renderedLoad = (if s.renderedLoad ≤ s.smoothedLoad then min (s.renderedLoad + n) s.smoothedLoad
        else max (s.renderedLoad - n) s.smoothedLoad) ∧
      ∃ u f, exec .tickCpuload t = .next u ∧ u.ret = .frame f ∧ (s.beat = false → f.b = 0) ∧
        u.renderedLoad ≤ t.renderedLoad + 1 ∧ t.renderedLoad ≤ u.renderedLoad + 1

/-- 42_animation_engine.md R120: `t_rate` is 5 to 20, with its values for each load; `level` is 191 to 255, and 255
without `THROB`; `blue` is 0 to 16. That the sine is a rational number is the model's (log 4). -/
def Obligations.CpuloadRanges : Prop :=
  (tRate 0 = 20 ∧ (∀ l, l ≤ 70 → tRate l = (100 - l) / 5) ∧ tRate 70 = 6 ∧ (∀ l, 71 ≤ l → tRate l = 5) ∧
    ∀ l, 5 ≤ tRate l ∧ tRate l ≤ 20) ∧
  ∀ (s : State) (l : Nat), (191 ≤ s.cpuLevel l ∧ s.cpuLevel l ≤ 255) ∧ (s.throb = false → s.cpuLevel l = 255) ∧
    s.cpuBlue ≤ 16

/-- 42_animation_engine.md R118, corner cases (d), (e), (f): at counters 0 blue is 8 with `BEAT` and the level 223
with `THROB`; the ends of the gradient; and R and G together lose at most 1 of the level. That the sine is a rational
number is the model's (log 4). -/
def Obligations.CpuloadCornerCases : Prop :=
  (∀ (s : State) (l : Nat), s.tickBeat = 0 → s.tickThrob = 0 →
    (s.beat = true → s.cpuBlue = 8) ∧ (s.throb = true → s.cpuLevel l = 223)) ∧
  ∀ level rl blue : Nat, rl ≤ 100 →
    (gradient level 0 blue).r = 0 ∧ (gradient level 0 blue).g = level ∧
    (gradient level 100 blue).r = level ∧ (gradient level 100 blue).g = 0 ∧
    (gradient level rl blue).r + (gradient level rl blue).g ≤ level ∧
    level ≤ (gradient level rl blue).r + (gradient level rl blue).g + 1

/-- 42_animation_engine.md R127: in every state that meets the invariant, every frame the compositor returns has three
channels of at most 255, so that masking changes none of them. That the sine is a rational number is the model's (log
4), and so is that a tick operation runs whatever `MODE` is (log 36). -/
def Obligations.ComposedChannelsFitAByte : Prop :=
  ∀ (s : State) (c : BitVec 24), s.Ready → s.Inv →
    ∀ i ∈ [Instr.tickCpuload, Instr.tickCycle, Instr.tickPulse, Instr.unpack c],
      ∃ t f, exec i s = .next t ∧ t.ret = .frame f ∧ f.r ≤ 255 ∧ f.g ≤ 255 ∧ f.b ≤ 255 ∧
        (trunc8 f.r).toNat = f.r ∧ (trunc8 f.g).toNat = f.g ∧ (trunc8 f.b).toNat = f.b

/-- 42_animation_engine.md R121, R130: `TICK.CYCLE` returns the mixture of two palette entries at the step it finds (the
scale `10 / 10` changes nothing), then the step advances; at 128 it is 0 and the index the cyclic successor. That the
operation runs whatever `MODE` is, is the model's choice (log 36). -/
def Obligations.TickCycleResult : Prop :=
  ∀ s : State, s.Ready →
    let c1 := readPalette s.ccIndex
    let c2 := readPalette ((s.ccIndex + 1) % 6)
    let mix : Byte → Byte → Nat := fun x y => (x.toNat * (128 - s.ccStep) + y.toNat * s.ccStep) / 128
    exec .tickCycle s = .next { s with
      ccStep := if s.ccStep + 1 = 128 then 0 else s.ccStep + 1
      ccIndex := if s.ccStep + 1 = 128 then (s.ccIndex + 1) % 6 else s.ccIndex
      ret := .frame ⟨mix c1.r c2.r, mix c1.g c2.g, mix c1.b c2.b⟩ }

/-- 42_animation_engine.md R121, corner cases (b), (c), (f): at step 0 a channel is the first entry's; at step 127 it is
within `-2` and `+1` of the second's; equal entries give that colour at every step. -/
def Obligations.CycleMeetsThePaletteEntries : Prop :=
  ∀ c1 c2 : Byte, mixChannel c1 c2 0 = c1.toNat ∧
    (c2.toNat ≤ mixChannel c1 c2 127 + 2 ∧ mixChannel c1 c2 127 ≤ c2.toNat + 1) ∧
    ∀ step, step ≤ 128 → mixChannel c1 c1 step = c1.toNat

/-- 42_animation_engine.md R122: 128 ticks from step 0 advance the index by one and end at step 0; 768 ticks lead back
to the same index and step, and the frames repeat. That the operation runs whatever `MODE` is, is the model's choice
(log 36). -/
def Obligations.CyclePeriod : Prop :=
  ∀ s : State, s.Ready → s.ccIndex < 6 → s.ccStep = 0 →
    (∃ t, execMany (List.replicate 128 .tickCycle) s = .next t ∧ t.ccIndex = (s.ccIndex + 1) % 6 ∧ t.ccStep = 0) ∧
    (∃ t, execMany (List.replicate 768 .tickCycle) s = .next t ∧ t = { s with ret := t.ret }) ∧
    ∀ n t u, execMany (List.replicate (n + 1) .tickCycle) s = .next t →
      execMany (List.replicate (n + 769) .tickCycle) s = .next u → u.ret = t.ret

/-- 42_animation_engine.md R123: `TICK.PULSE` returns each channel of `COLOR` times `(SIN + 1) / 2`, truncated last;
at counter 0 that is half of it for any speed; it is never more than the channel, so 0 stays 0; the counter advances
and nothing else changes. That the sine is a rational number is the model's (log 4), and so is that the operation runs
whatever `MODE` is (log 36). -/
def Obligations.TickPulseResult : Prop :=
  ∀ s : State, s.Ready →
    let lvl : Rat := (sine s.tickPulse s.speed + 1) / 2
    let f : Frame := ⟨trunc ((s.color.toNat / 65536 : Nat) * lvl), trunc ((s.color.toNat / 256 % 256 : Nat) * lvl),
      trunc ((s.color.toNat % 256 : Nat) * lvl)⟩
    exec .tickPulse s = .next { s with tickPulse := s.tickPulse + 1, ret := .frame f } ∧
    (s.tickPulse = 0 →
      f = ⟨s.color.toNat / 65536 / 2, s.color.toNat / 256 % 256 / 2, s.color.toNat % 256 / 2⟩) ∧
    f.r ≤ s.color.toNat / 65536 ∧ f.g ≤ s.color.toNat / 256 % 256 ∧ f.b ≤ s.color.toNat % 256

/-- 42_animation_engine.md R125: `STEP.STATIC` at `Send1` and `Send2` is a `SENDFRAME` of the unpacked `COLOR`, after
which the phase moves on if no `WriteFailure` was raised; at `Pause` it only moves on; at `Done` there is no step. "No
step" is the model's fault `staticDone` (log 24). It sends under `SIMULATE` or on an initialised
device (70_reset_and_hazards.md R213; before `INIT`: `UndescribedUsesStopByName`). That it sends after a `TEARDOWN`
(log 35), behind a partial frame (log 37), outside the render loop (log 42), and whatever `MODE` is (log 36) is the model's
choice. -/
def Obligations.StepStaticSends : Prop :=
  ∀ s : State, s.Ready →
    let send := exec (.sendframe (s.color.toNat / 65536) (s.color.toNat / 256 % 256) (s.color.toNat % 256)) s
    (∀ from_ to_, (from_, to_) ∈ [(StPhase.send1, StPhase.pause), (StPhase.send2, StPhase.done)] →
      s.stPhase = from_ → (s.simulate = true ∨ s.inited = true) → ∃ t, send = .next t ∧
        (t.fault = none → exec .stepStatic s = .next { t with stPhase := to_ }) ∧
        (t.fault ≠ none → exec .stepStatic s = .next t ∧ t.stPhase = from_)) ∧
    (s.stPhase = .pause → exec .stepStatic s = .next { s with stPhase := .send2 }) ∧
    (s.stPhase = .done → exec .stepStatic s = .fault .staticDone)

/-- 42_animation_engine.md R126: in the static mode, if neither `write` fails, three iterations of the render loop put the
same 72 snapshots of the configured colour on `OUTSTREAM` exactly twice and end at `Done`, stop or no stop (R125 (c),
44_scheduler_and_sink.md R171; the spec decided it, log 32). A further iteration sends nothing; that it has a next state
at all is the model's choice, since R125 gives no step at `Done` (log 24), and so is that a `RUNTICK` sends after a
`TEARDOWN` (log 35), behind the partial frame of a failed bare `WRITE` (log 37) and outside the render loop (log 42). -/
def Obligations.StaticSendsExactlyTwice : Prop :=
  ∀ s : State, s.Ready → s.mode = .static → s.stPhase = .send1 → resting linePins s.ls = true →
    (s.simulate = true ∨ (s.inited = true ∧ s.sinkAnswer = .ok ∧
      ∀ u, execMany [.runtick, .runtick] s = .next u → u.sinkAnswer = .ok)) →
    ∃ t snapshots, execMany [.runtick, .runtick, .runtick] s = .next t ∧ t.stPhase = .done ∧ t.fault = none ∧
      t.stop = s.stop ∧ snapshots.length = 72 ∧ t.outStream = s.outStream ++ snapshots ++ snapshots ∧
      decFrameFun linePins snapshots =
        some ⟨s.color.toNat / 65536, s.color.toNat / 256 % 256, s.color.toNat % 256⟩ ∧
      ∃ u, exec .runtick t = .next u ∧ u.outStream = t.outStream

/-! LoadSampler. -/

/-- 43_load_sampler.md R150: `SAMPLE` returns `100 * busy div total` of the growth between its two reads, a number of
at most 100; no value where no counter moved; `MetricSourceUnavailable` where a read failed; it writes no other
register. The premise of R150 (a) is built into the answer: counters only grow (log 9). That it completes after
a fatal exception (log 23), where 60_exceptions.md R185 has no operation run, and before the sampler has been started
(log 41), is the model's choice. -/
def Obligations.SampleMeasuresTheLoad : Prop :=
  ∀ s : State, s.exitStatus = none →
    ∃ x, exec .sample s = .next { s.afterMetricAnswer with ret := x } ∧
      (∀ a d, s.metricAnswer = ⟨some a, some d⟩ →
        let b : Counters := ⟨a.user + d.user, a.nice + d.nice, a.system + d.system, a.idle + d.idle⟩
        let busy : Counters → Nat := fun c => c.user + c.nice + c.system
        let total : Counters → Nat := fun c => busy c + c.idle
        x = (if total b - total a = 0 then .noValue else .percent (100 * (busy b - busy a) / (total b - total a))) ∧
        100 * (busy b - busy a) / (total b - total a) ≤ 100) ∧
      ((s.metricAnswer.first = none ∨ s.metricAnswer.growth = none) → x = .raised .metricSourceUnavailable)

/-- 43_load_sampler.md R151, R152, 60_exceptions.md R190: `SMPLOOP` completes whatever the metric source answers: a
percentage goes to `SMOOTHED_LOAD`, `SMP_LAST`, `SMP_HAVE`; otherwise nothing is written, no fault is set, and the
sampler's values stay. That it completes after a fatal exception (log 23), where R185 has no operation run, and before
the sampler has been started (log 41), is the model's choice. -/
def Obligations.SmploopKeepsOrHolds : Prop :=
  ∀ s : State, s.exitStatus = none →
    ∃ x t, exec .sample s = .next { s.afterMetricAnswer with ret := x } ∧ exec .smploop s = .next t ∧
      (∀ p, x = .percent p → t = { s.afterMetricAnswer with smoothedLoad := p, smpLast := p, smpHave := true }) ∧
      ((∀ p, x ≠ .percent p) → t = s.afterMetricAnswer)

/-! Scheduler, sink and host. -/

/-- 44_scheduler_and_sink.md R160, 30_encoding.md R66, R68: a legal `CONFIG` latches the seven registers, an absent
option at its default and speed 0 as 1, and the run goes on to the device, or past it under `SIMULATE`; nothing else
changes. The place in the run is the model's (log 14), and so is that other operations may have been issued before
(log 22). -/
def Obligations.ConfigLatchesALegalRecord : Prop :=
  ∀ (s : State) (c : ConfigRecord), s.Ready → s.phase = .awaitConfig →
    c.mode ≠ .bad → c.speed ≠ .bad → c.color ≠ .bad → (∀ n, c.color = .given n → n < 2 ^ 24) →
    c.beat ≠ .bad → c.throb ≠ .bad → c.simulate ≠ .bad → c.debug ≠ .bad → c.unknownOption = false →
    ∃ t, exec (.config c) s = .next t ∧
      ((c.mode = .absent ∧ t.mode = .cpuLoad) ∨ c.mode = .given t.mode) ∧
      ((c.speed = .absent ∧ t.speed = 100) ∨ (c.speed = .given 0 ∧ t.speed = 1) ∨
        (c.speed = .given t.speed ∧ 1 ≤ t.speed)) ∧
      ((c.color = .absent ∧ t.color = 0xFFFFFF) ∨ c.color = .given t.color.toNat) ∧
      (t.beat = true ↔ c.beat = .given true) ∧ (t.throb = true ↔ c.throb = .given true) ∧
      (t.simulate = true ↔ c.simulate = .given true) ∧ (t.debug = true ↔ c.debug = .given true) ∧
      t = { s with
        mode := t.mode
        speed := t.speed
        color := t.color
        beat := t.beat
        throb := t.throb
        simulate := t.simulate
        debug := t.debug
        phase := if t.simulate then .awaitSampler else .awaitOpen }

/-- 60_exceptions.md R184, R189, 30_encoding.md R72: an illegal record is a fatal `ConfigurationInvalid` that names an
option which is illegal in it; no configuration register is written, there is no device call and no frame, and with
nothing issued the next step is `EXIT EXIT_FAIL`. Which of several illegal options is named is left free (log 26). That
a malformed boolean is illegal is read from 92_eei_decisions.md D22 (log 27). The place in the run is the model's
(log 14), and so is that other operations may have been issued before (log 22). -/
def Obligations.ConfigRefusesAnIllegalRecord : Prop :=
  ∀ (s : State) (c : ConfigRecord), s.Ready → s.phase = .awaitConfig →
    (c.mode = .bad ∨ c.speed = .bad ∨ c.color = .bad ∨ (∃ n, c.color = .given n ∧ 2 ^ 24 ≤ n) ∨ c.beat = .bad ∨
      c.throb = .bad ∨ c.simulate = .bad ∨ c.debug = .bad ∨ c.unknownOption = true) →
    ∃ o, (o = .mode → c.mode = .bad) ∧ (o = .speed → c.speed = .bad) ∧
      (o = .color → c.color = .bad ∨ ∃ n, c.color = .given n ∧ 2 ^ 24 ≤ n) ∧
      (o = .beat → c.beat = .bad) ∧ (o = .throb → c.throb = .bad) ∧
      (o = .simulate → c.simulate = .bad) ∧ (o = .debug → c.debug = .bad) ∧
      (o = .unknown → c.unknownOption = true) ∧
      let t : State := { s with
        fault := some (.configurationInvalid o)
        events := s.events ++ [.message (.configurationInvalid o) (Config.messageText (.configurationInvalid o))]
        draws := s.draws + 1 }
      exec (.config c) s = .next t ∧ (s.issue = [] → step t = exec (.exit .fail) t)

/-- 44_scheduler_and_sink.md R162, 60_exceptions.md R181, R189: `INIT` calls `enter_bitbang_mode(BITBANG_MASK)` once;
success sets `INITED` and a run that waits for it goes on to the sampler; a failure is a fatal `DeviceUnavailable` with
its message, with `INITED` still false and the place in the run kept; no snapshot is sent and `LS` is not written. The
wires are left free (log 10) and the places in the run are the model's (log 14). That an `INIT` issued under `SIMULATE`
completes as a skip is the model's choice: R162 says never under `SIMULATE` (log 21). So is that one issued before
`CONFIG` keeps the run at `CONFIG` (log 22), and that a first one after a bare `SIMWRITE` or a `TEARDOWN` still
makes the call (log 43). -/
def Obligations.InitEntersBitbangMode : Prop :=
  ∀ s : State, s.Ready →
    let onward : RunPhase := if s.phase = .awaitOpen ∨ s.phase = .awaitInit then .awaitSampler else s.phase
    (s.simulate = false → s.inited = false →
      ∃ t, exec .init s = .next t ∧
        (s.deviceAnswer = true → t.inited = true ∧ t.fault = none ∧
          t.events = s.events ++ [.enterBitbang Config.bitbangMask true] ∧ t.phase = onward) ∧
        (s.deviceAnswer = false → t.inited = false ∧ t.phase = s.phase ∧
          t.fault = some (.deviceUnavailable .enteringBitbang) ∧
          t.events = s.events ++ [.enterBitbang Config.bitbangMask false,
            .message (.deviceUnavailable .enteringBitbang)
              (Config.messageText (.deviceUnavailable .enteringBitbang))]) ∧
        t = { s.afterDeviceAnswer with
          events := t.events
          inited := t.inited
          fault := t.fault
          phase := t.phase
          phy := t.phy
          draws := t.draws }) ∧
    (s.simulate = true → exec .init s = .next { s with phase := onward })

/-- 44_scheduler_and_sink.md R163, R171, 42_animation_engine.md R115: in a looping mode, with no stop and a sink that may
be written to, `RUNTICK` is the tick operation of the mode followed by `SENDFRAME` of the frame that it returned, one
frame and one transaction (without `DEBUG`; a returned value is no part of it). In the static mode, before `Done`, it is
`STEP.STATIC`: a `WriteFailure` ends it in the phase it was in, and the step that reaches `Done` also leaves the loop, on
to `TEARDOWN`, or past it under `SIMULATE` (or once it has been performed). The places in the run are the model's
(log 14), and so is that a tick runs after a `TEARDOWN` (log 35), behind the partial frame of a failed bare `WRITE`
(log 37) and outside the render loop (log 42). -/
def Obligations.RuntickSendsTheFrameOfTheMode : Prop :=
  (∀ s : State, s.Ready → s.mode ≠ .static → s.stop = false → s.debug = false →
    (s.simulate = true ∨ s.inited = true) →
    ∃ u f t, exec (tickOperation s.mode) s = .next u ∧ u.ret = .frame f ∧
      exec (.sendframe f.r f.g f.b) u = .next t ∧ exec .runtick s = .next { t with ret := s.ret } ∧
      (s.mode = .cpuLoad → tickOperation s.mode = .tickCpuload) ∧
      (s.mode = .colorCycle → tickOperation s.mode = .tickCycle) ∧
      (s.mode = .pulse → tickOperation s.mode = .tickPulse)) ∧
  ∀ s : State, s.Ready → s.mode = .static → s.stPhase ≠ .done →
    (s.stPhase = .pause ∨ s.simulate = true ∨ s.inited = true) →
    ∃ u t, exec .stepStatic s = .next u ∧ exec .runtick s = .next t ∧
      (u.fault ≠ none → u.stPhase = s.stPhase ∧ t = u) ∧
      (u.fault = none → (s.stPhase = .send1 ∧ u.stPhase = .pause) ∨ (s.stPhase = .pause ∧ u.stPhase = .send2) ∨
        (s.stPhase = .send2 ∧ u.stPhase = .done)) ∧
      (u.stPhase ≠ .done → t = u) ∧
      (u.stPhase = .done → t = { u with phase := t.phase } ∧ (s.simulate = true → t.phase = .awaitExit) ∧
        (s.simulate = false → s.phase ≠ .awaitExit → t.phase = .awaitTeardown))

/-- 44_scheduler_and_sink.md R164, R171: `RUNTICK` of a looping mode that finds `STOP` true, and of the static mode at
`Done`, sends no frame and runs no tick operation; the run goes on to `TEARDOWN`, or past it under `SIMULATE` (or once
it has been performed). The place in the run is the model's (log 14), and so is that a `RUNTICK` issued at `Done` leaves
the loop, since 42_animation_engine.md R125 gives no step there (log 24), and that a `RUNTICK` runs outside the render
loop (log 42). -/
def Obligations.RuntickLeavesTheLoop : Prop :=
  ∀ s : State, s.Ready → ((s.mode ≠ .static ∧ s.stop = true) ∨ (s.mode = .static ∧ s.stPhase = .done)) →
    ∃ t, exec .runtick s = .next t ∧ t = { s with phase := t.phase } ∧
      (s.simulate = true → t.phase = .awaitExit) ∧
      (s.simulate = false → s.phase ≠ .awaitExit → t.phase = .awaitTeardown)

/-- 42_animation_engine.md R125 corner case (c), 44_scheduler_and_sink.md R171: in the static mode `RUNTICK` does the
same whether or not a stop was requested. -/
def Obligations.StaticModeIgnoresTheStop : Prop :=
  ∀ (s t : State) (b : Bool), s.mode = .static → exec .runtick s = .next t →
    exec .runtick { s with stop := b } = .next { t with stop := b }

/-- 10_state.md R25, 44_scheduler_and_sink.md R167: the debug option changes nothing of what an operation does but the
debug text observed: what was seen before the operation stays, and without the debug texts the operation is seen to do
the same. Debug text is seen of a `RUNTICK` that runs a tick operation, at most one text each; its place
is the model's (log 6). -/
def Obligations.DebugChangesOnlyTheText : Prop :=
  ∀ (i : Instr) (s t : State) (b : Bool), (∀ c, i ≠ .config c) → exec i s = .next t →
    ∃ seen, exec i { s with debug := b } = .next { t with debug := b, events := s.events ++ seen } ∧
      t.events.filter (!·.isDebugText) = (s.events ++ seen).filter (!·.isDebugText) ∧
      (seen.filter Event.isDebugText).length ≤ 1 ∧
      (seen.any Event.isDebugText = true → b = true ∧ i = .runtick ∧ s.mode ≠ .static ∧ s.stop = false)

/-- 44_scheduler_and_sink.md R165: `WRITE` makes one call with its bytes and returns the sink's answer; on success all of
them are appended to `OUTSTREAM`, on a failure the first `n`; it raises nothing; apart from the wires nothing else
changes. That it does so after a `TEARDOWN` (log 35), after a failed `WRITE` (log 37), with bytes that
are no frame's snapshots (log 38) and outside the render loop (log 42) is the model's choice. -/
def Obligations.WriteHandsOverToTheDevice : Prop :=
  ∀ (s : State) (bytes : List Byte), s.Ready → s.simulate = false → s.inited = true →
    ∃ t, exec (.write bytes) s = .next t ∧
      (s.sinkAnswer = .ok → t.outStream = s.outStream ++ bytes ∧ t.ret = .sinkOk ∧
        ∀ x, bytes.getLast? = some x → t.phy = ⟨clockOf linePins x, dataOf linePins x⟩) ∧
      (∀ n, s.sinkAnswer = .fail n → t.outStream = s.outStream ++ bytes.take n ∧ t.ret = .sinkFail) ∧
      t = { s.afterSinkAnswer with
        outStream := t.outStream
        events := s.events ++ [.write bytes s.sinkAnswer]
        ret := t.ret
        phy := t.phy
        draws := t.draws }

/-- 44_scheduler_and_sink.md R166: `SIMWRITE` prints the triple once, keeps the bytes, and always succeeds.
That it runs with `SIMULATE` false, where 20_memory.md R48 puts the device behind `OUTSTREAM`, is the model's choice
(log 8), and so is that the bytes need not be a frame's snapshots (log 38), nor the triple the frame they encode (log
40), nor whole frames what stands before them (log 37). -/
def Obligations.SimwriteAlwaysSucceeds : Prop :=
  ∀ (s : State) (bytes : List Byte) (x : Rgb), s.Ready →
    exec (.simwrite bytes x) s = .next { s with
      outStream := s.outStream ++ bytes
      events := s.events ++ [.simWrite bytes x (Config.simFormat x)]
      ret := .sinkOk }

/-- 44_scheduler_and_sink.md R168: `TEARDOWN` is one device call, none under `SIMULATE`, and writes no register of the
block; what the wires do is left free. The place in the run is the model's (log 14), and so is the free value of the
wires (log 10). That it runs before the device is open, or a second time, is the model's choice: 44_scheduler_and_sink.md
R176 has it at most once (log 8). -/
def Obligations.TeardownReleasesTheDevice : Prop :=
  ∀ s : State, s.Ready →
    (s.simulate = true → exec .teardown s = .next { s with phase := .awaitExit }) ∧
    (s.simulate = false → ∃ wires, exec .teardown s = .next { s with
      phase := .awaitExit
      events := s.events ++ [.teardown]
      phy := wires
      draws := s.draws + 1 })

/-- 44_scheduler_and_sink.md R169: `EXIT code` completes before the end of a run (after a fatal exception as `EXIT
EXIT_FAIL`), the status is 0 or a non-zero number, and afterwards no operation of any agent has a step (`DECFRAME`, which
no agent performs, aside): the model's fault `runEnded` (log 23). That `EXIT 0` completes without a stop, `Done` or
`TEARDOWN` before it, and `EXIT EXIT_FAIL` without a fault, is the model's choice (log 39; R173 has them only after
those). -/
def Obligations.ExitEndsTheRun : Prop :=
  ∀ (s : State) (code : ExitCode), s.exitStatus = none → (s.fault = none ∨ code = .fail) →
    ∃ t status, exec (.exit code) s = .next t ∧ (code = .ok → status = 0) ∧ (code = .fail → status ≠ 0) ∧
      t = { s with exitStatus := some status, samplerOn := false, events := s.events ++ [.exit status] } ∧
      (∀ i, (∀ bytes, i ≠ .decframe bytes) → exec i t = .fault .runEnded) ∧
      (s.issue = [] → step t = .fault .runEnded)

/-- 44_scheduler_and_sink.md R170, 60_exceptions.md R193: `STOPREQ` sets `STOP` and nothing else, at any time before the
end of a run and as often as the host likes; after a fatal exception it has no effect. -/
def Obligations.StopreqSetsStopOnly : Prop :=
  ∀ s : State, s.exitStatus = none →
    (s.fault = none → exec .stopreq s = .next { s with stop := true } ∧
      execMany [.stopreq, .stopreq] s = exec .stopreq s) ∧
    (s.fault ≠ none → exec .stopreq s = .next s)

/-- The stops by name (10_state.md R36, 44_scheduler_and_sink.md R160, R165, 70_reset_and_hazards.md R213, R224):
`RUNTICK` and `STEP.STATIC` about to send to a device not initialised, `SENDFRAME` and `WRITE` to it, `WRITE` under
`SIMULATE`, a second `INIT`, a second `CONFIG` (log 19 to 22). -/
def Obligations.UndescribedUsesStopByName : Prop :=
  ∀ s : State, s.Ready →
    (s.simulate = false → s.inited = false →
      ((s.mode ≠ .static ∧ s.stop = false) ∨ (s.mode = .static ∧ (s.stPhase = .send1 ∨ s.stPhase = .send2)) →
        exec .runtick s = .refused .runtickBeforeInit) ∧
      (∀ r g b, exec (.sendframe r g b) s = .refused .sendframeBeforeInit) ∧
      (s.stPhase = .send1 ∨ s.stPhase = .send2 → exec .stepStatic s = .refused .stepStaticBeforeInit) ∧
      ∀ bytes, exec (.write bytes) s = .refused .writeBeforeInit) ∧
    (s.simulate = true → ∀ bytes, exec (.write bytes) s = .refused .writeUnderSimulate) ∧
    (s.simulate = false → s.inited = true → exec .init s = .refused .initTwice) ∧
    (s.phase ≠ .awaitConfig → ∀ c, exec (.config c) s = .refused .configTwice)

/-! The whole machine. -/

/-- 10_state.md R35, 60_exceptions.md R192: once `FAULT` is set no operation changes it, and the only operation of the
render agent that still has a step is `EXIT EXIT_FAIL`. That the sampler's and the host's operations, and `DECFRAME`,
still have one when they are issued is the model's choice (log 23). -/
def Obligations.FatalExceptionIsFinal : Prop :=
  ∀ (i : Instr) (s t : State) (c : FatalCause), s.fault = some c → exec i s = .next t →
    t.fault = some c ∧
      (i = .exit .fail ∨ i = .sample ∨ i = .smploop ∨ i = .stopreq ∨ ∃ bytes, i = .decframe bytes)

/-- 60_exceptions.md R180: which operation raises which fatal exception, and their numbers; the sampler's exception never
sets `FAULT`. -/
def Obligations.WhatRaisesWhat : Prop :=
  (∀ (i : Instr) (s t : State) (c : FatalCause), s.fault = none → exec i s = .next t → t.fault = some c →
    match c with
    | .deviceUnavailable failed => i = .init ∧ failed = .enteringBitbang ∧ s.simulate = false
    | .writeFailure _ =>
      (i = .runtick ∨ i = .stepStatic ∨ ∃ r g b, i = .sendframe r g b) ∧ s.simulate = false
    | .configurationInvalid _ => ∃ record, i = .config record) ∧
  [ErrorClass.deviceUnavailable, .writeFailure, .metricSourceUnavailable, .configurationInvalid].map errorCode =
    [1, 2, 3, 4] ∧
  (∀ x, errorFatal x = false ↔ x = .metricSourceUnavailable)

/-- 60_exceptions.md R194, 10_state.md R26, R28, R34 to R38: who may write what. The operations are given by their codes
(30_encoding.md R70): `LS`, the latch and the buffer with its position by the encoder's operations; `OUTSTREAM` by
`SENDFRAME`, `STEP.STATIC`, `RUNTICK` and the two sink writes; the wires by those on the device sink, `INIT` and
`TEARDOWN`; `FAULT` by `SENDFRAME`, `STEP.STATIC`, `CONFIG`, `INIT` and `RUNTICK`; the load cell and the sampler's state
by `SMPLOOP`; the configuration registers by `CONFIG`; `STOP` by `STOPREQ`; `INITED` by `INIT`; each mode's state by
that mode's tick operation or by `RUNTICK`. -/
def Obligations.OwnershipOfState : Prop :=
  ∀ (i : Instr) (s t : State), exec i s = .next t →
    (i.opcode ∉ [0x01, 0x02, 0x03, 0x08, 0x09, 0x10, 0x11, 0x23, 0x42] → t.ls = s.ls) ∧
    (i.opcode ∉ [0x10, 0x11, 0x23, 0x42] → t.frR = s.frR ∧ t.frG = s.frG ∧ t.frB = s.frB) ∧
    (i.opcode ∉ [0x04, 0x08, 0x09, 0x10, 0x11, 0x23, 0x42] → t.out = s.out ∧ t.pos = s.pos) ∧
    (i.opcode ∉ [0x11, 0x23, 0x42, 0x43, 0x44] → t.outStream = s.outStream) ∧
    (i.opcode ∉ [0x11, 0x23, 0x41, 0x42, 0x43, 0x45] ∨ s.simulate = true → t.phy = s.phy) ∧
    (i.opcode ∉ [0x11, 0x23, 0x40, 0x41, 0x42] → t.fault = s.fault) ∧
    (i ≠ .smploop → t.smoothedLoad = s.smoothedLoad ∧ t.smpLast = s.smpLast ∧ t.smpHave = s.smpHave) ∧
    ((∀ c, i ≠ .config c) → t.mode = s.mode ∧ t.speed = s.speed ∧ t.color = s.color ∧ t.beat = s.beat ∧
      t.throb = s.throb ∧ t.simulate = s.simulate ∧ t.debug = s.debug) ∧
    (i ≠ .stopreq → t.stop = s.stop) ∧ (i ≠ .init → t.inited = s.inited) ∧
    (i ≠ .tickCpuload → ¬(i = .runtick ∧ s.mode = .cpuLoad) →
      t.renderedLoad = s.renderedLoad ∧ t.tickBeat = s.tickBeat ∧ t.tickThrob = s.tickThrob) ∧
    (i ≠ .tickCycle → ¬(i = .runtick ∧ s.mode = .colorCycle) → t.ccIndex = s.ccIndex ∧ t.ccStep = s.ccStep) ∧
    (i ≠ .tickPulse → ¬(i = .runtick ∧ s.mode = .pulse) → t.tickPulse = s.tickPulse) ∧
    (i ≠ .stepStatic → ¬(i = .runtick ∧ s.mode = .static) → t.stPhase = s.stPhase)

/-- 20_memory.md R41, 44_scheduler_and_sink.md R172: `OUTSTREAM` only ever grows at its end, and only by `SENDFRAME`,
`STEP.STATIC`, `RUNTICK` and the two sink writes; the first three append one whole frame of 72 bytes, or nothing, unless
a `WriteFailure` is raised, and then at most 72. -/
def Obligations.OutstreamGrowsByWholeFrames : Prop :=
  ∀ (i : Instr) (s t : State), exec i s = .next t →
    ∃ sent, t.outStream = s.outStream ++ sent ∧
      (sent ≠ [] → i = .runtick ∨ i = .stepStatic ∨ (∃ r g b, i = .sendframe r g b) ∨ (∃ x, i = .write x) ∨
        ∃ x y, i = .simwrite x y) ∧
      ((i = .runtick ∨ i = .stepStatic ∨ ∃ r g b, i = .sendframe r g b) →
        sent.length ≤ 72 ∧ (t.fault = none → sent.length = 0 ∨ sent.length = 72))

/-- 10_state.md R28, 60_exceptions.md R197: only `TICK.CPULOAD` (on its own or in a `RUNTICK` of that mode) reads the load
cell, so every other operation but the cell's writer does the same whatever it holds. -/
def Obligations.OnlyCpuloadReadsTheLoadCell : Prop :=
  ∀ (i : Instr) (s t : State) (p : Nat), i ≠ .smploop → i ≠ .tickCpuload → ¬(i = .runtick ∧ s.mode = .cpuLoad) →
    exec i s = .next t → exec i { s with smoothedLoad := p } = .next { t with smoothedLoad := p }

/-- Every step keeps the invariant of every state (10_state.md R13, R18, R20, R28 to R30, R32, R37), whoever issues
the operations. That a percentage is at most 100 rests on cumulative counters (log 9). -/
def Obligations.StepKeepsTheInvariant : Prop :=
  ∀ s t : State, s.Inv → step s = .next t → t.Inv

/-- The invariant of every state holds at reset. -/
def Obligations.InvariantAtReset : Prop := State.reset.Inv

/-- Every step of a machine that is left to its own order keeps the invariant of such a run (Safety.lean `RunInv`:
10_state.md R14, R18, R36, R39, 20_memory.md R46, 42_animation_engine.md R126, 44_scheduler_and_sink.md R161, R173).
The places in the run are the model's (log 14). -/
def Obligations.OwnOrderKeepsTheRunInvariant : Prop :=
  ∀ s t : State, s.RunInv → step s = .next t → t.RunInv

/-- The invariant of a run holds at reset. -/
def Obligations.RunInvariantAtReset : Prop := State.reset.RunInv

/-- In a run of the machine's own order a step is never refused, and is a fault only once `EXIT` has been performed.
The model's own order (log 14, log 18); collaborators always answer (log 31). -/
def Obligations.OwnOrderAlwaysHasAStep : Prop :=
  ∀ s : State, s.RunInv →
    (s.exitStatus = none → ∃ t, step s = .next t) ∧ (s.exitStatus ≠ none → step s = .fault .runEnded)

/-- 44_scheduler_and_sink.md R173: in a run of the machine's own order the step that ends the run is seen as the exit and
nothing else. If its status is 0, a stop was requested or the static mode reached `Done`, there was no fault, `TEARDOWN`
was performed unless `SIMULATE`, and it leaves whole frames on `OUTSTREAM`, `POS` 0, `OUT` empty, `LS` in the resting
state. Any other status follows a fatal exception, in whatever state that left. The places in the run are the model's
(log 14). -/
def Obligations.EndedWell : Prop :=
  ∀ (s t : State) (status : Int), s.RunInv → s.exitStatus = none → step s = .next t → t.exitStatus = some status →
    t.events = s.events ++ [.exit status] ∧ t.outStream = s.outStream ∧ t.fault = s.fault ∧
    (status = 0 → (t.stop = true ∨ (t.mode = .static ∧ t.stPhase = .done)) ∧ t.fault = none ∧
      (t.simulate = false → Event.teardown ∈ t.events) ∧ 72 ∣ t.outStream.length ∧ t.pos = 0 ∧ t.out = [] ∧
      resting linePins t.ls = true) ∧
    (status ≠ 0 → t.fault ≠ none)

/-- 10_state.md R36, 70_reset_and_hazards.md R213, R224: in a run of the machine's own order a step that puts anything on
`OUTSTREAM` is one of the render loop, under `SIMULATE` or on a device that has been initialised; and the step that
initialises the device is not under `SIMULATE`, finds nothing on `OUTSTREAM` and leaves nothing there. The places in the
run are the model's (log 14). -/
def Obligations.NoFrameBeforeInit : Prop :=
  ∀ s t : State, s.RunInv → step s = .next t →
    (t.outStream ≠ s.outStream → s.phase = .looping ∧ s.fault = none ∧ (s.simulate = true ∨ s.inited = true)) ∧
    (t.inited ≠ s.inited → t.inited = true ∧ s.simulate = false ∧ s.outStream = [] ∧ t.outStream = [])

/-- 70_reset_and_hazards.md R210: the reset values the spec states (`FR` and `PHY`, which it leaves unspecified, are not
among them). -/
def Obligations.ResetValues : Prop :=
  let s := State.reset
  s.ls = 0x00 ∧ s.out = [] ∧ s.pos = 0 ∧ s.outStream = [] ∧ s.mode = .cpuLoad ∧ s.speed = 100 ∧ s.color = 0xFFFFFF ∧
  s.beat = false ∧ s.throb = false ∧ s.simulate = false ∧ s.debug = false ∧ s.smoothedLoad = 0 ∧ s.renderedLoad = 0 ∧
  s.tickBeat = 0 ∧ s.tickThrob = 0 ∧ s.tickPulse = 0 ∧ s.ccIndex = 0 ∧ s.ccStep = 0 ∧ s.stPhase = .send1 ∧
  s.stop = false ∧ s.fault = none ∧ s.inited = false ∧ s.smpHave = false ∧ s.smpLast = 0
end

