-- ==== Sys2Proof/Laws/Encoding.lean ====
section
/-! SUPPORT. Each operand reader takes exactly what the encoder of its operand wrote. -/

namespace Sys2Proof

theorem readBit_bitByte (b : Bool) (rest : List Byte) : readBit (bitByte b :: rest) = some (b, rest) := by
  cases b <;> simp [readBit, bitByte]

/-- Any fuel above the number gives its bytes, and they read back. -/
theorem readNat_natBytesFrom {fuel n : Nat} (h : n < fuel) (rest : List Byte) :
    readNat (natBytesFrom fuel n ++ rest) = some (n, rest) := by
  induction fuel generalizing n with
  | zero => omega
  | succ f ih =>
    unfold natBytesFrom
    split
    · rename_i h1
      simp [readNat, BitVec.toNat_ofNat, Nat.mod_eq_of_lt (show n < 256 by omega), h1]
    · have := ih (n := n / 128) (by omega)
      have h2 : (128 + n % 128) % 2 ^ 8 = 128 + n % 128 := by omega
      simp only [List.cons_append, readNat, BitVec.toNat_ofNat, h2]
      rw [if_neg (by omega), this]
      simp only
      rw [if_neg (by omega)]
      congr 2
      omega

theorem readNat_natBytes (n : Nat) (rest : List Byte) : readNat (natBytes n ++ rest) = some (n, rest) :=
  readNat_natBytesFrom (by omega) rest

theorem readBytes_append (bytes rest : List Byte) : readBytes bytes.length (bytes ++ rest) = some (bytes, rest) := by
  induction bytes with
  | nil => rfl
  | cons b bs ih => simp [readBytes, ih]

theorem readSequence_append (bytes rest : List Byte) :
    readSequence (natBytes bytes.length ++ (bytes ++ rest)) = some (bytes, rest) := by
  simp [readSequence, readNat_natBytes, readBytes_append]

theorem readTriple_natBytes (r g b : Nat) (rest : List Byte) :
    readTriple (natBytes r ++ (natBytes g ++ (natBytes b ++ rest))) = some ((r, g, b), rest) := by
  simp [readTriple, readNat_natBytes]

theorem readModeField_bytes (x : Supplied Mode) (rest : List Byte) :
    readModeField (modeFieldBytes x ++ rest) = some (x, rest) := by
  rcases x with _ | _ | m
  · simp [modeFieldBytes, readModeField]
  · simp [modeFieldBytes, readModeField]
  · cases m <;> simp [modeFieldBytes, readModeField]

theorem readNatField_bytes (x : Supplied Nat) (rest : List Byte) :
    readNatField (natFieldBytes x ++ rest) = some (x, rest) := by
  cases x <;> simp [natFieldBytes, readNatField, readNat_natBytes]

theorem readBoolOption_byte (x : Supplied Bool) (rest : List Byte) :
    readBoolOption (boolOptionByte x :: rest) = some (x, rest) := by
  rcases x with _ | _ | _ | _ <;> simp [boolOptionByte, readBoolOption]

theorem readRecord_bytes (c : ConfigRecord) (rest : List Byte) :
    readRecord (recordBytes c ++ rest) = some (c, rest) := by
  simp [readRecord, recordBytes, readModeField_bytes, readNatField_bytes, readBoolOption_byte, readBit_bitByte]

end Sys2Proof
end

