-- ==== Sys2Proof/Laws/State.lean ====
section
/-! SUPPORT. Every field of the state after every elementary update: the new value of a field the update writes, the old
value of every other. -/

namespace Sys2Proof.Machine

/-! `State.setd` -/

@[simp] theorem State.setd_ls (b : Bool) (s : State) : (s.setd b).ls = setData linePins b s.ls := rfl
@[simp] theorem State.setd_frR (b : Bool) (s : State) : (s.setd b).frR = s.frR := rfl
@[simp] theorem State.setd_frG (b : Bool) (s : State) : (s.setd b).frG = s.frG := rfl
@[simp] theorem State.setd_frB (b : Bool) (s : State) : (s.setd b).frB = s.frB := rfl
@[simp] theorem State.setd_out (b : Bool) (s : State) : (s.setd b).out = s.out := rfl
@[simp] theorem State.setd_pos (b : Bool) (s : State) : (s.setd b).pos = s.pos := rfl
@[simp] theorem State.setd_mode (b : Bool) (s : State) : (s.setd b).mode = s.mode := rfl
@[simp] theorem State.setd_speed (b : Bool) (s : State) : (s.setd b).speed = s.speed := rfl
@[simp] theorem State.setd_color (b : Bool) (s : State) : (s.setd b).color = s.color := rfl
@[simp] theorem State.setd_beat (b : Bool) (s : State) : (s.setd b).beat = s.beat := rfl
@[simp] theorem State.setd_throb (b : Bool) (s : State) : (s.setd b).throb = s.throb := rfl
@[simp] theorem State.setd_simulate (b : Bool) (s : State) : (s.setd b).simulate = s.simulate := rfl
@[simp] theorem State.setd_debug (b : Bool) (s : State) : (s.setd b).debug = s.debug := rfl
@[simp] theorem State.setd_smoothedLoad (b : Bool) (s : State) : (s.setd b).smoothedLoad = s.smoothedLoad := rfl
@[simp] theorem State.setd_renderedLoad (b : Bool) (s : State) : (s.setd b).renderedLoad = s.renderedLoad := rfl
@[simp] theorem State.setd_tickBeat (b : Bool) (s : State) : (s.setd b).tickBeat = s.tickBeat := rfl
@[simp] theorem State.setd_tickThrob (b : Bool) (s : State) : (s.setd b).tickThrob = s.tickThrob := rfl
@[simp] theorem State.setd_tickPulse (b : Bool) (s : State) : (s.setd b).tickPulse = s.tickPulse := rfl
@[simp] theorem State.setd_ccIndex (b : Bool) (s : State) : (s.setd b).ccIndex = s.ccIndex := rfl
@[simp] theorem State.setd_ccStep (b : Bool) (s : State) : (s.setd b).ccStep = s.ccStep := rfl
@[simp] theorem State.setd_stPhase (b : Bool) (s : State) : (s.setd b).stPhase = s.stPhase := rfl
@[simp] theorem State.setd_stop (b : Bool) (s : State) : (s.setd b).stop = s.stop := rfl
@[simp] theorem State.setd_fault (b : Bool) (s : State) : (s.setd b).fault = s.fault := rfl
@[simp] theorem State.setd_inited (b : Bool) (s : State) : (s.setd b).inited = s.inited := rfl
@[simp] theorem State.setd_smpHave (b : Bool) (s : State) : (s.setd b).smpHave = s.smpHave := rfl
@[simp] theorem State.setd_smpLast (b : Bool) (s : State) : (s.setd b).smpLast = s.smpLast := rfl
@[simp] theorem State.setd_phy (b : Bool) (s : State) : (s.setd b).phy = s.phy := rfl
@[simp] theorem State.setd_outStream (b : Bool) (s : State) : (s.setd b).outStream = s.outStream := rfl
@[simp] theorem State.setd_phase (b : Bool) (s : State) : (s.setd b).phase = s.phase := rfl
@[simp] theorem State.setd_samplerOn (b : Bool) (s : State) : (s.setd b).samplerOn = s.samplerOn := rfl
@[simp] theorem State.setd_exitStatus (b : Bool) (s : State) : (s.setd b).exitStatus = s.exitStatus := rfl
@[simp] theorem State.setd_events (b : Bool) (s : State) : (s.setd b).events = s.events := rfl
@[simp] theorem State.setd_ret (b : Bool) (s : State) : (s.setd b).ret = s.ret := rfl
@[simp] theorem State.setd_issue (b : Bool) (s : State) : (s.setd b).issue = s.issue := rfl
@[simp] theorem State.setd_draws (b : Bool) (s : State) : (s.setd b).draws = s.draws := rfl
@[simp] theorem State.setd_inCalls (b : Bool) (s : State) : (s.setd b).inCalls = s.inCalls := rfl
@[simp] theorem State.setd_inSinks (b : Bool) (s : State) : (s.setd b).inSinks = s.inSinks := rfl
@[simp] theorem State.setd_inMetrics (b : Bool) (s : State) : (s.setd b).inMetrics = s.inMetrics := rfl
@[simp] theorem State.setd_inRecords (b : Bool) (s : State) : (s.setd b).inRecords = s.inRecords := rfl
@[simp] theorem State.setd_inAgents (b : Bool) (s : State) : (s.setd b).inAgents = s.inAgents := rfl

/-! `State.clkh` -/

@[simp] theorem State.clkh_ls (s : State) : (s.clkh).ls = clockHigh linePins s.ls := rfl
@[simp] theorem State.clkh_frR (s : State) : (s.clkh).frR = s.frR := rfl
@[simp] theorem State.clkh_frG (s : State) : (s.clkh).frG = s.frG := rfl
@[simp] theorem State.clkh_frB (s : State) : (s.clkh).frB = s.frB := rfl
@[simp] theorem State.clkh_out (s : State) : (s.clkh).out = s.out := rfl
@[simp] theorem State.clkh_pos (s : State) : (s.clkh).pos = s.pos := rfl
@[simp] theorem State.clkh_mode (s : State) : (s.clkh).mode = s.mode := rfl
@[simp] theorem State.clkh_speed (s : State) : (s.clkh).speed = s.speed := rfl
@[simp] theorem State.clkh_color (s : State) : (s.clkh).color = s.color := rfl
@[simp] theorem State.clkh_beat (s : State) : (s.clkh).beat = s.beat := rfl
@[simp] theorem State.clkh_throb (s : State) : (s.clkh).throb = s.throb := rfl
@[simp] theorem State.clkh_simulate (s : State) : (s.clkh).simulate = s.simulate := rfl
@[simp] theorem State.clkh_debug (s : State) : (s.clkh).debug = s.debug := rfl
@[simp] theorem State.clkh_smoothedLoad (s : State) : (s.clkh).smoothedLoad = s.smoothedLoad := rfl
@[simp] theorem State.clkh_renderedLoad (s : State) : (s.clkh).renderedLoad = s.renderedLoad := rfl
@[simp] theorem State.clkh_tickBeat (s : State) : (s.clkh).tickBeat = s.tickBeat := rfl
@[simp] theorem State.clkh_tickThrob (s : State) : (s.clkh).tickThrob = s.tickThrob := rfl
@[simp] theorem State.clkh_tickPulse (s : State) : (s.clkh).tickPulse = s.tickPulse := rfl
@[simp] theorem State.clkh_ccIndex (s : State) : (s.clkh).ccIndex = s.ccIndex := rfl
@[simp] theorem State.clkh_ccStep (s : State) : (s.clkh).ccStep = s.ccStep := rfl
@[simp] theorem State.clkh_stPhase (s : State) : (s.clkh).stPhase = s.stPhase := rfl
@[simp] theorem State.clkh_stop (s : State) : (s.clkh).stop = s.stop := rfl
@[simp] theorem State.clkh_fault (s : State) : (s.clkh).fault = s.fault := rfl
@[simp] theorem State.clkh_inited (s : State) : (s.clkh).inited = s.inited := rfl
@[simp] theorem State.clkh_smpHave (s : State) : (s.clkh).smpHave = s.smpHave := rfl
@[simp] theorem State.clkh_smpLast (s : State) : (s.clkh).smpLast = s.smpLast := rfl
@[simp] theorem State.clkh_phy (s : State) : (s.clkh).phy = s.phy := rfl
@[simp] theorem State.clkh_outStream (s : State) : (s.clkh).outStream = s.outStream := rfl
@[simp] theorem State.clkh_phase (s : State) : (s.clkh).phase = s.phase := rfl
@[simp] theorem State.clkh_samplerOn (s : State) : (s.clkh).samplerOn = s.samplerOn := rfl
@[simp] theorem State.clkh_exitStatus (s : State) : (s.clkh).exitStatus = s.exitStatus := rfl
@[simp] theorem State.clkh_events (s : State) : (s.clkh).events = s.events := rfl
@[simp] theorem State.clkh_ret (s : State) : (s.clkh).ret = s.ret := rfl
@[simp] theorem State.clkh_issue (s : State) : (s.clkh).issue = s.issue := rfl
@[simp] theorem State.clkh_draws (s : State) : (s.clkh).draws = s.draws := rfl
@[simp] theorem State.clkh_inCalls (s : State) : (s.clkh).inCalls = s.inCalls := rfl
@[simp] theorem State.clkh_inSinks (s : State) : (s.clkh).inSinks = s.inSinks := rfl
@[simp] theorem State.clkh_inMetrics (s : State) : (s.clkh).inMetrics = s.inMetrics := rfl
@[simp] theorem State.clkh_inRecords (s : State) : (s.clkh).inRecords = s.inRecords := rfl
@[simp] theorem State.clkh_inAgents (s : State) : (s.clkh).inAgents = s.inAgents := rfl

/-! `State.clkl` -/

@[simp] theorem State.clkl_ls (s : State) : (s.clkl).ls = clockLow linePins s.ls := rfl
@[simp] theorem State.clkl_frR (s : State) : (s.clkl).frR = s.frR := rfl
@[simp] theorem State.clkl_frG (s : State) : (s.clkl).frG = s.frG := rfl
@[simp] theorem State.clkl_frB (s : State) : (s.clkl).frB = s.frB := rfl
@[simp] theorem State.clkl_out (s : State) : (s.clkl).out = s.out := rfl
@[simp] theorem State.clkl_pos (s : State) : (s.clkl).pos = s.pos := rfl
@[simp] theorem State.clkl_mode (s : State) : (s.clkl).mode = s.mode := rfl
@[simp] theorem State.clkl_speed (s : State) : (s.clkl).speed = s.speed := rfl
@[simp] theorem State.clkl_color (s : State) : (s.clkl).color = s.color := rfl
@[simp] theorem State.clkl_beat (s : State) : (s.clkl).beat = s.beat := rfl
@[simp] theorem State.clkl_throb (s : State) : (s.clkl).throb = s.throb := rfl
@[simp] theorem State.clkl_simulate (s : State) : (s.clkl).simulate = s.simulate := rfl
@[simp] theorem State.clkl_debug (s : State) : (s.clkl).debug = s.debug := rfl
@[simp] theorem State.clkl_smoothedLoad (s : State) : (s.clkl).smoothedLoad = s.smoothedLoad := rfl
@[simp] theorem State.clkl_renderedLoad (s : State) : (s.clkl).renderedLoad = s.renderedLoad := rfl
@[simp] theorem State.clkl_tickBeat (s : State) : (s.clkl).tickBeat = s.tickBeat := rfl
@[simp] theorem State.clkl_tickThrob (s : State) : (s.clkl).tickThrob = s.tickThrob := rfl
@[simp] theorem State.clkl_tickPulse (s : State) : (s.clkl).tickPulse = s.tickPulse := rfl
@[simp] theorem State.clkl_ccIndex (s : State) : (s.clkl).ccIndex = s.ccIndex := rfl
@[simp] theorem State.clkl_ccStep (s : State) : (s.clkl).ccStep = s.ccStep := rfl
@[simp] theorem State.clkl_stPhase (s : State) : (s.clkl).stPhase = s.stPhase := rfl
@[simp] theorem State.clkl_stop (s : State) : (s.clkl).stop = s.stop := rfl
@[simp] theorem State.clkl_fault (s : State) : (s.clkl).fault = s.fault := rfl
@[simp] theorem State.clkl_inited (s : State) : (s.clkl).inited = s.inited := rfl
@[simp] theorem State.clkl_smpHave (s : State) : (s.clkl).smpHave = s.smpHave := rfl
@[simp] theorem State.clkl_smpLast (s : State) : (s.clkl).smpLast = s.smpLast := rfl
@[simp] theorem State.clkl_phy (s : State) : (s.clkl).phy = s.phy := rfl
@[simp] theorem State.clkl_outStream (s : State) : (s.clkl).outStream = s.outStream := rfl
@[simp] theorem State.clkl_phase (s : State) : (s.clkl).phase = s.phase := rfl
@[simp] theorem State.clkl_samplerOn (s : State) : (s.clkl).samplerOn = s.samplerOn := rfl
@[simp] theorem State.clkl_exitStatus (s : State) : (s.clkl).exitStatus = s.exitStatus := rfl
@[simp] theorem State.clkl_events (s : State) : (s.clkl).events = s.events := rfl
@[simp] theorem State.clkl_ret (s : State) : (s.clkl).ret = s.ret := rfl
@[simp] theorem State.clkl_issue (s : State) : (s.clkl).issue = s.issue := rfl
@[simp] theorem State.clkl_draws (s : State) : (s.clkl).draws = s.draws := rfl
@[simp] theorem State.clkl_inCalls (s : State) : (s.clkl).inCalls = s.inCalls := rfl
@[simp] theorem State.clkl_inSinks (s : State) : (s.clkl).inSinks = s.inSinks := rfl
@[simp] theorem State.clkl_inMetrics (s : State) : (s.clkl).inMetrics = s.inMetrics := rfl
@[simp] theorem State.clkl_inRecords (s : State) : (s.clkl).inRecords = s.inRecords := rfl
@[simp] theorem State.clkl_inAgents (s : State) : (s.clkl).inAgents = s.inAgents := rfl

/-! `State.emit` -/

@[simp] theorem State.emit_ls (s : State) : (s.emit).ls = s.ls := rfl
@[simp] theorem State.emit_frR (s : State) : (s.emit).frR = s.frR := rfl
@[simp] theorem State.emit_frG (s : State) : (s.emit).frG = s.frG := rfl
@[simp] theorem State.emit_frB (s : State) : (s.emit).frB = s.frB := rfl
@[simp] theorem State.emit_out (s : State) : (s.emit).out = s.out ++ [s.ls] := rfl
@[simp] theorem State.emit_pos (s : State) : (s.emit).pos = s.pos + 1 := rfl
@[simp] theorem State.emit_mode (s : State) : (s.emit).mode = s.mode := rfl
@[simp] theorem State.emit_speed (s : State) : (s.emit).speed = s.speed := rfl
@[simp] theorem State.emit_color (s : State) : (s.emit).color = s.color := rfl
@[simp] theorem State.emit_beat (s : State) : (s.emit).beat = s.beat := rfl
@[simp] theorem State.emit_throb (s : State) : (s.emit).throb = s.throb := rfl
@[simp] theorem State.emit_simulate (s : State) : (s.emit).simulate = s.simulate := rfl
@[simp] theorem State.emit_debug (s : State) : (s.emit).debug = s.debug := rfl
@[simp] theorem State.emit_smoothedLoad (s : State) : (s.emit).smoothedLoad = s.smoothedLoad := rfl
@[simp] theorem State.emit_renderedLoad (s : State) : (s.emit).renderedLoad = s.renderedLoad := rfl
@[simp] theorem State.emit_tickBeat (s : State) : (s.emit).tickBeat = s.tickBeat := rfl
@[simp] theorem State.emit_tickThrob (s : State) : (s.emit).tickThrob = s.tickThrob := rfl
@[simp] theorem State.emit_tickPulse (s : State) : (s.emit).tickPulse = s.tickPulse := rfl
@[simp] theorem State.emit_ccIndex (s : State) : (s.emit).ccIndex = s.ccIndex := rfl
@[simp] theorem State.emit_ccStep (s : State) : (s.emit).ccStep = s.ccStep := rfl
@[simp] theorem State.emit_stPhase (s : State) : (s.emit).stPhase = s.stPhase := rfl
@[simp] theorem State.emit_stop (s : State) : (s.emit).stop = s.stop := rfl
@[simp] theorem State.emit_fault (s : State) : (s.emit).fault = s.fault := rfl
@[simp] theorem State.emit_inited (s : State) : (s.emit).inited = s.inited := rfl
@[simp] theorem State.emit_smpHave (s : State) : (s.emit).smpHave = s.smpHave := rfl
@[simp] theorem State.emit_smpLast (s : State) : (s.emit).smpLast = s.smpLast := rfl
@[simp] theorem State.emit_phy (s : State) : (s.emit).phy = s.phy := rfl
@[simp] theorem State.emit_outStream (s : State) : (s.emit).outStream = s.outStream := rfl
@[simp] theorem State.emit_phase (s : State) : (s.emit).phase = s.phase := rfl
@[simp] theorem State.emit_samplerOn (s : State) : (s.emit).samplerOn = s.samplerOn := rfl
@[simp] theorem State.emit_exitStatus (s : State) : (s.emit).exitStatus = s.exitStatus := rfl
@[simp] theorem State.emit_events (s : State) : (s.emit).events = s.events := rfl
@[simp] theorem State.emit_ret (s : State) : (s.emit).ret = s.ret := rfl
@[simp] theorem State.emit_issue (s : State) : (s.emit).issue = s.issue := rfl
@[simp] theorem State.emit_draws (s : State) : (s.emit).draws = s.draws := rfl
@[simp] theorem State.emit_inCalls (s : State) : (s.emit).inCalls = s.inCalls := rfl
@[simp] theorem State.emit_inSinks (s : State) : (s.emit).inSinks = s.inSinks := rfl
@[simp] theorem State.emit_inMetrics (s : State) : (s.emit).inMetrics = s.inMetrics := rfl
@[simp] theorem State.emit_inRecords (s : State) : (s.emit).inRecords = s.inRecords := rfl
@[simp] theorem State.emit_inAgents (s : State) : (s.emit).inAgents = s.inAgents := rfl

/-! `State.latchFrame` -/

@[simp] theorem State.latchFrame_ls (r g b : Nat) (s : State) : (s.latchFrame r g b).ls = s.ls := rfl
@[simp] theorem State.latchFrame_frR (r g b : Nat) (s : State) : (s.latchFrame r g b).frR = trunc8 r := rfl
@[simp] theorem State.latchFrame_frG (r g b : Nat) (s : State) : (s.latchFrame r g b).frG = trunc8 g := rfl
@[simp] theorem State.latchFrame_frB (r g b : Nat) (s : State) : (s.latchFrame r g b).frB = trunc8 b := rfl
@[simp] theorem State.latchFrame_out (r g b : Nat) (s : State) : (s.latchFrame r g b).out = s.out := rfl
@[simp] theorem State.latchFrame_pos (r g b : Nat) (s : State) : (s.latchFrame r g b).pos = s.pos := rfl
@[simp] theorem State.latchFrame_mode (r g b : Nat) (s : State) : (s.latchFrame r g b).mode = s.mode := rfl
@[simp] theorem State.latchFrame_speed (r g b : Nat) (s : State) : (s.latchFrame r g b).speed = s.speed := rfl
@[simp] theorem State.latchFrame_color (r g b : Nat) (s : State) : (s.latchFrame r g b).color = s.color := rfl
@[simp] theorem State.latchFrame_beat (r g b : Nat) (s : State) : (s.latchFrame r g b).beat = s.beat := rfl
@[simp] theorem State.latchFrame_throb (r g b : Nat) (s : State) : (s.latchFrame r g b).throb = s.throb := rfl
@[simp] theorem State.latchFrame_simulate (r g b : Nat) (s : State) : (s.latchFrame r g b).simulate = s.simulate := rfl
@[simp] theorem State.latchFrame_debug (r g b : Nat) (s : State) : (s.latchFrame r g b).debug = s.debug := rfl
@[simp] theorem State.latchFrame_smoothedLoad (r g b : Nat) (s : State) : (s.latchFrame r g b).smoothedLoad = s.smoothedLoad := rfl
@[simp] theorem State.latchFrame_renderedLoad (r g b : Nat) (s : State) : (s.latchFrame r g b).renderedLoad = s.renderedLoad := rfl
@[simp] theorem State.latchFrame_tickBeat (r g b : Nat) (s : State) : (s.latchFrame r g b).tickBeat = s.tickBeat := rfl
@[simp] theorem State.latchFrame_tickThrob (r g b : Nat) (s : State) : (s.latchFrame r g b).tickThrob = s.tickThrob := rfl
@[simp] theorem State.latchFrame_tickPulse (r g b : Nat) (s : State) : (s.latchFrame r g b).tickPulse = s.tickPulse := rfl
@[simp] theorem State.latchFrame_ccIndex (r g b : Nat) (s : State) : (s.latchFrame r g b).ccIndex = s.ccIndex := rfl
@[simp] theorem State.latchFrame_ccStep (r g b : Nat) (s : State) : (s.latchFrame r g b).ccStep = s.ccStep := rfl
@[simp] theorem State.latchFrame_stPhase (r g b : Nat) (s : State) : (s.latchFrame r g b).stPhase = s.stPhase := rfl
@[simp] theorem State.latchFrame_stop (r g b : Nat) (s : State) : (s.latchFrame r g b).stop = s.stop := rfl
@[simp] theorem State.latchFrame_fault (r g b : Nat) (s : State) : (s.latchFrame r g b).fault = s.fault := rfl
@[simp] theorem State.latchFrame_inited (r g b : Nat) (s : State) : (s.latchFrame r g b).inited = s.inited := rfl
@[simp] theorem State.latchFrame_smpHave (r g b : Nat) (s : State) : (s.latchFrame r g b).smpHave = s.smpHave := rfl
@[simp] theorem State.latchFrame_smpLast (r g b : Nat) (s : State) : (s.latchFrame r g b).smpLast = s.smpLast := rfl
@[simp] theorem State.latchFrame_phy (r g b : Nat) (s : State) : (s.latchFrame r g b).phy = s.phy := rfl
@[simp] theorem State.latchFrame_outStream (r g b : Nat) (s : State) : (s.latchFrame r g b).outStream = s.outStream := rfl
@[simp] theorem State.latchFrame_phase (r g b : Nat) (s : State) : (s.latchFrame r g b).phase = s.phase := rfl
@[simp] theorem State.latchFrame_samplerOn (r g b : Nat) (s : State) : (s.latchFrame r g b).samplerOn = s.samplerOn := rfl
@[simp] theorem State.latchFrame_exitStatus (r g b : Nat) (s : State) : (s.latchFrame r g b).exitStatus = s.exitStatus := rfl
@[simp] theorem State.latchFrame_events (r g b : Nat) (s : State) : (s.latchFrame r g b).events = s.events := rfl
@[simp] theorem State.latchFrame_ret (r g b : Nat) (s : State) : (s.latchFrame r g b).ret = s.ret := rfl
@[simp] theorem State.latchFrame_issue (r g b : Nat) (s : State) : (s.latchFrame r g b).issue = s.issue := rfl
@[simp] theorem State.latchFrame_draws (r g b : Nat) (s : State) : (s.latchFrame r g b).draws = s.draws := rfl
@[simp] theorem State.latchFrame_inCalls (r g b : Nat) (s : State) : (s.latchFrame r g b).inCalls = s.inCalls := rfl
@[simp] theorem State.latchFrame_inSinks (r g b : Nat) (s : State) : (s.latchFrame r g b).inSinks = s.inSinks := rfl
@[simp] theorem State.latchFrame_inMetrics (r g b : Nat) (s : State) : (s.latchFrame r g b).inMetrics = s.inMetrics := rfl
@[simp] theorem State.latchFrame_inRecords (r g b : Nat) (s : State) : (s.latchFrame r g b).inRecords = s.inRecords := rfl
@[simp] theorem State.latchFrame_inAgents (r g b : Nat) (s : State) : (s.latchFrame r g b).inAgents = s.inAgents := rfl

/-! `State.clearOut` -/

@[simp] theorem State.clearOut_ls (s : State) : (s.clearOut).ls = s.ls := rfl
@[simp] theorem State.clearOut_frR (s : State) : (s.clearOut).frR = s.frR := rfl
@[simp] theorem State.clearOut_frG (s : State) : (s.clearOut).frG = s.frG := rfl
@[simp] theorem State.clearOut_frB (s : State) : (s.clearOut).frB = s.frB := rfl
@[simp] theorem State.clearOut_out (s : State) : (s.clearOut).out = [] := rfl
@[simp] theorem State.clearOut_pos (s : State) : (s.clearOut).pos = 0 := rfl
@[simp] theorem State.clearOut_mode (s : State) : (s.clearOut).mode = s.mode := rfl
@[simp] theorem State.clearOut_speed (s : State) : (s.clearOut).speed = s.speed := rfl
@[simp] theorem State.clearOut_color (s : State) : (s.clearOut).color = s.color := rfl
@[simp] theorem State.clearOut_beat (s : State) : (s.clearOut).beat = s.beat := rfl
@[simp] theorem State.clearOut_throb (s : State) : (s.clearOut).throb = s.throb := rfl
@[simp] theorem State.clearOut_simulate (s : State) : (s.clearOut).simulate = s.simulate := rfl
@[simp] theorem State.clearOut_debug (s : State) : (s.clearOut).debug = s.debug := rfl
@[simp] theorem State.clearOut_smoothedLoad (s : State) : (s.clearOut).smoothedLoad = s.smoothedLoad := rfl
@[simp] theorem State.clearOut_renderedLoad (s : State) : (s.clearOut).renderedLoad = s.renderedLoad := rfl
@[simp] theorem State.clearOut_tickBeat (s : State) : (s.clearOut).tickBeat = s.tickBeat := rfl
@[simp] theorem State.clearOut_tickThrob (s : State) : (s.clearOut).tickThrob = s.tickThrob := rfl
@[simp] theorem State.clearOut_tickPulse (s : State) : (s.clearOut).tickPulse = s.tickPulse := rfl
@[simp] theorem State.clearOut_ccIndex (s : State) : (s.clearOut).ccIndex = s.ccIndex := rfl
@[simp] theorem State.clearOut_ccStep (s : State) : (s.clearOut).ccStep = s.ccStep := rfl
@[simp] theorem State.clearOut_stPhase (s : State) : (s.clearOut).stPhase = s.stPhase := rfl
@[simp] theorem State.clearOut_stop (s : State) : (s.clearOut).stop = s.stop := rfl
@[simp] theorem State.clearOut_fault (s : State) : (s.clearOut).fault = s.fault := rfl
@[simp] theorem State.clearOut_inited (s : State) : (s.clearOut).inited = s.inited := rfl
@[simp] theorem State.clearOut_smpHave (s : State) : (s.clearOut).smpHave = s.smpHave := rfl
@[simp] theorem State.clearOut_smpLast (s : State) : (s.clearOut).smpLast = s.smpLast := rfl
@[simp] theorem State.clearOut_phy (s : State) : (s.clearOut).phy = s.phy := rfl
@[simp] theorem State.clearOut_outStream (s : State) : (s.clearOut).outStream = s.outStream := rfl
@[simp] theorem State.clearOut_phase (s : State) : (s.clearOut).phase = s.phase := rfl
@[simp] theorem State.clearOut_samplerOn (s : State) : (s.clearOut).samplerOn = s.samplerOn := rfl
@[simp] theorem State.clearOut_exitStatus (s : State) : (s.clearOut).exitStatus = s.exitStatus := rfl
@[simp] theorem State.clearOut_events (s : State) : (s.clearOut).events = s.events := rfl
@[simp] theorem State.clearOut_ret (s : State) : (s.clearOut).ret = s.ret := rfl
@[simp] theorem State.clearOut_issue (s : State) : (s.clearOut).issue = s.issue := rfl
@[simp] theorem State.clearOut_draws (s : State) : (s.clearOut).draws = s.draws := rfl
@[simp] theorem State.clearOut_inCalls (s : State) : (s.clearOut).inCalls = s.inCalls := rfl
@[simp] theorem State.clearOut_inSinks (s : State) : (s.clearOut).inSinks = s.inSinks := rfl
@[simp] theorem State.clearOut_inMetrics (s : State) : (s.clearOut).inMetrics = s.inMetrics := rfl
@[simp] theorem State.clearOut_inRecords (s : State) : (s.clearOut).inRecords = s.inRecords := rfl
@[simp] theorem State.clearOut_inAgents (s : State) : (s.clearOut).inAgents = s.inAgents := rfl

/-! `State.afterDraw` -/

@[simp] theorem State.afterDraw_ls (s : State) : (s.afterDraw).ls = s.ls := rfl
@[simp] theorem State.afterDraw_frR (s : State) : (s.afterDraw).frR = s.frR := rfl
@[simp] theorem State.afterDraw_frG (s : State) : (s.afterDraw).frG = s.frG := rfl
@[simp] theorem State.afterDraw_frB (s : State) : (s.afterDraw).frB = s.frB := rfl
@[simp] theorem State.afterDraw_out (s : State) : (s.afterDraw).out = s.out := rfl
@[simp] theorem State.afterDraw_pos (s : State) : (s.afterDraw).pos = s.pos := rfl
@[simp] theorem State.afterDraw_mode (s : State) : (s.afterDraw).mode = s.mode := rfl
@[simp] theorem State.afterDraw_speed (s : State) : (s.afterDraw).speed = s.speed := rfl
@[simp] theorem State.afterDraw_color (s : State) : (s.afterDraw).color = s.color := rfl
@[simp] theorem State.afterDraw_beat (s : State) : (s.afterDraw).beat = s.beat := rfl
@[simp] theorem State.afterDraw_throb (s : State) : (s.afterDraw).throb = s.throb := rfl
@[simp] theorem State.afterDraw_simulate (s : State) : (s.afterDraw).simulate = s.simulate := rfl
@[simp] theorem State.afterDraw_debug (s : State) : (s.afterDraw).debug = s.debug := rfl
@[simp] theorem State.afterDraw_smoothedLoad (s : State) : (s.afterDraw).smoothedLoad = s.smoothedLoad := rfl
@[simp] theorem State.afterDraw_renderedLoad (s : State) : (s.afterDraw).renderedLoad = s.renderedLoad := rfl
@[simp] theorem State.afterDraw_tickBeat (s : State) : (s.afterDraw).tickBeat = s.tickBeat := rfl
@[simp] theorem State.afterDraw_tickThrob (s : State) : (s.afterDraw).tickThrob = s.tickThrob := rfl
@[simp] theorem State.afterDraw_tickPulse (s : State) : (s.afterDraw).tickPulse = s.tickPulse := rfl
@[simp] theorem State.afterDraw_ccIndex (s : State) : (s.afterDraw).ccIndex = s.ccIndex := rfl
@[simp] theorem State.afterDraw_ccStep (s : State) : (s.afterDraw).ccStep = s.ccStep := rfl
@[simp] theorem State.afterDraw_stPhase (s : State) : (s.afterDraw).stPhase = s.stPhase := rfl
@[simp] theorem State.afterDraw_stop (s : State) : (s.afterDraw).stop = s.stop := rfl
@[simp] theorem State.afterDraw_fault (s : State) : (s.afterDraw).fault = s.fault := rfl
@[simp] theorem State.afterDraw_inited (s : State) : (s.afterDraw).inited = s.inited := rfl
@[simp] theorem State.afterDraw_smpHave (s : State) : (s.afterDraw).smpHave = s.smpHave := rfl
@[simp] theorem State.afterDraw_smpLast (s : State) : (s.afterDraw).smpLast = s.smpLast := rfl
@[simp] theorem State.afterDraw_phy (s : State) : (s.afterDraw).phy = s.phy := rfl
@[simp] theorem State.afterDraw_outStream (s : State) : (s.afterDraw).outStream = s.outStream := rfl
@[simp] theorem State.afterDraw_phase (s : State) : (s.afterDraw).phase = s.phase := rfl
@[simp] theorem State.afterDraw_samplerOn (s : State) : (s.afterDraw).samplerOn = s.samplerOn := rfl
@[simp] theorem State.afterDraw_exitStatus (s : State) : (s.afterDraw).exitStatus = s.exitStatus := rfl
@[simp] theorem State.afterDraw_events (s : State) : (s.afterDraw).events = s.events := rfl
@[simp] theorem State.afterDraw_ret (s : State) : (s.afterDraw).ret = s.ret := rfl
@[simp] theorem State.afterDraw_issue (s : State) : (s.afterDraw).issue = s.issue := rfl
@[simp] theorem State.afterDraw_draws (s : State) : (s.afterDraw).draws = s.draws + 1 := rfl
@[simp] theorem State.afterDraw_inCalls (s : State) : (s.afterDraw).inCalls = s.inCalls := rfl
@[simp] theorem State.afterDraw_inSinks (s : State) : (s.afterDraw).inSinks = s.inSinks := rfl
@[simp] theorem State.afterDraw_inMetrics (s : State) : (s.afterDraw).inMetrics = s.inMetrics := rfl
@[simp] theorem State.afterDraw_inRecords (s : State) : (s.afterDraw).inRecords = s.inRecords := rfl
@[simp] theorem State.afterDraw_inAgents (s : State) : (s.afterDraw).inAgents = s.inAgents := rfl

/-! `State.observe` -/

@[simp] theorem State.observe_ls (e : Event) (s : State) : (s.observe e).ls = s.ls := rfl
@[simp] theorem State.observe_frR (e : Event) (s : State) : (s.observe e).frR = s.frR := rfl
@[simp] theorem State.observe_frG (e : Event) (s : State) : (s.observe e).frG = s.frG := rfl
@[simp] theorem State.observe_frB (e : Event) (s : State) : (s.observe e).frB = s.frB := rfl
@[simp] theorem State.observe_out (e : Event) (s : State) : (s.observe e).out = s.out := rfl
@[simp] theorem State.observe_pos (e : Event) (s : State) : (s.observe e).pos = s.pos := rfl
@[simp] theorem State.observe_mode (e : Event) (s : State) : (s.observe e).mode = s.mode := rfl
@[simp] theorem State.observe_speed (e : Event) (s : State) : (s.observe e).speed = s.speed := rfl
@[simp] theorem State.observe_color (e : Event) (s : State) : (s.observe e).color = s.color := rfl
@[simp] theorem State.observe_beat (e : Event) (s : State) : (s.observe e).beat = s.beat := rfl
@[simp] theorem State.observe_throb (e : Event) (s : State) : (s.observe e).throb = s.throb := rfl
@[simp] theorem State.observe_simulate (e : Event) (s : State) : (s.observe e).simulate = s.simulate := rfl
@[simp] theorem State.observe_debug (e : Event) (s : State) : (s.observe e).debug = s.debug := rfl
@[simp] theorem State.observe_smoothedLoad (e : Event) (s : State) : (s.observe e).smoothedLoad = s.smoothedLoad := rfl
@[simp] theorem State.observe_renderedLoad (e : Event) (s : State) : (s.observe e).renderedLoad = s.renderedLoad := rfl
@[simp] theorem State.observe_tickBeat (e : Event) (s : State) : (s.observe e).tickBeat = s.tickBeat := rfl
@[simp] theorem State.observe_tickThrob (e : Event) (s : State) : (s.observe e).tickThrob = s.tickThrob := rfl
@[simp] theorem State.observe_tickPulse (e : Event) (s : State) : (s.observe e).tickPulse = s.tickPulse := rfl
@[simp] theorem State.observe_ccIndex (e : Event) (s : State) : (s.observe e).ccIndex = s.ccIndex := rfl
@[simp] theorem State.observe_ccStep (e : Event) (s : State) : (s.observe e).ccStep = s.ccStep := rfl
@[simp] theorem State.observe_stPhase (e : Event) (s : State) : (s.observe e).stPhase = s.stPhase := rfl
@[simp] theorem State.observe_stop (e : Event) (s : State) : (s.observe e).stop = s.stop := rfl
@[simp] theorem State.observe_fault (e : Event) (s : State) : (s.observe e).fault = s.fault := rfl
@[simp] theorem State.observe_inited (e : Event) (s : State) : (s.observe e).inited = s.inited := rfl
@[simp] theorem State.observe_smpHave (e : Event) (s : State) : (s.observe e).smpHave = s.smpHave := rfl
@[simp] theorem State.observe_smpLast (e : Event) (s : State) : (s.observe e).smpLast = s.smpLast := rfl
@[simp] theorem State.observe_phy (e : Event) (s : State) : (s.observe e).phy = s.phy := rfl
@[simp] theorem State.observe_outStream (e : Event) (s : State) : (s.observe e).outStream = s.outStream := rfl
@[simp] theorem State.observe_phase (e : Event) (s : State) : (s.observe e).phase = s.phase := rfl
@[simp] theorem State.observe_samplerOn (e : Event) (s : State) : (s.observe e).samplerOn = s.samplerOn := rfl
@[simp] theorem State.observe_exitStatus (e : Event) (s : State) : (s.observe e).exitStatus = s.exitStatus := rfl
@[simp] theorem State.observe_events (e : Event) (s : State) : (s.observe e).events = s.events ++ [e] := rfl
@[simp] theorem State.observe_ret (e : Event) (s : State) : (s.observe e).ret = s.ret := rfl
@[simp] theorem State.observe_issue (e : Event) (s : State) : (s.observe e).issue = s.issue := rfl
@[simp] theorem State.observe_draws (e : Event) (s : State) : (s.observe e).draws = s.draws := rfl
@[simp] theorem State.observe_inCalls (e : Event) (s : State) : (s.observe e).inCalls = s.inCalls := rfl
@[simp] theorem State.observe_inSinks (e : Event) (s : State) : (s.observe e).inSinks = s.inSinks := rfl
@[simp] theorem State.observe_inMetrics (e : Event) (s : State) : (s.observe e).inMetrics = s.inMetrics := rfl
@[simp] theorem State.observe_inRecords (e : Event) (s : State) : (s.observe e).inRecords = s.inRecords := rfl
@[simp] theorem State.observe_inAgents (e : Event) (s : State) : (s.observe e).inAgents = s.inAgents := rfl

/-! `State.returning` -/

@[simp] theorem State.returning_ls (x : Result) (s : State) : (s.returning x).ls = s.ls := rfl
@[simp] theorem State.returning_frR (x : Result) (s : State) : (s.returning x).frR = s.frR := rfl
@[simp] theorem State.returning_frG (x : Result) (s : State) : (s.returning x).frG = s.frG := rfl
@[simp] theorem State.returning_frB (x : Result) (s : State) : (s.returning x).frB = s.frB := rfl
@[simp] theorem State.returning_out (x : Result) (s : State) : (s.returning x).out = s.out := rfl
@[simp] theorem State.returning_pos (x : Result) (s : State) : (s.returning x).pos = s.pos := rfl
@[simp] theorem State.returning_mode (x : Result) (s : State) : (s.returning x).mode = s.mode := rfl
@[simp] theorem State.returning_speed (x : Result) (s : State) : (s.returning x).speed = s.speed := rfl
@[simp] theorem State.returning_color (x : Result) (s : State) : (s.returning x).color = s.color := rfl
@[simp] theorem State.returning_beat (x : Result) (s : State) : (s.returning x).beat = s.beat := rfl
@[simp] theorem State.returning_throb (x : Result) (s : State) : (s.returning x).throb = s.throb := rfl
@[simp] theorem State.returning_simulate (x : Result) (s : State) : (s.returning x).simulate = s.simulate := rfl
@[simp] theorem State.returning_debug (x : Result) (s : State) : (s.returning x).debug = s.debug := rfl
@[simp] theorem State.returning_smoothedLoad (x : Result) (s : State) : (s.returning x).smoothedLoad = s.smoothedLoad := rfl
@[simp] theorem State.returning_renderedLoad (x : Result) (s : State) : (s.returning x).renderedLoad = s.renderedLoad := rfl
@[simp] theorem State.returning_tickBeat (x : Result) (s : State) : (s.returning x).tickBeat = s.tickBeat := rfl
@[simp] theorem State.returning_tickThrob (x : Result) (s : State) : (s.returning x).tickThrob = s.tickThrob := rfl
@[simp] theorem State.returning_tickPulse (x : Result) (s : State) : (s.returning x).tickPulse = s.tickPulse := rfl
@[simp] theorem State.returning_ccIndex (x : Result) (s : State) : (s.returning x).ccIndex = s.ccIndex := rfl
@[simp] theorem State.returning_ccStep (x : Result) (s : State) : (s.returning x).ccStep = s.ccStep := rfl
@[simp] theorem State.returning_stPhase (x : Result) (s : State) : (s.returning x).stPhase = s.stPhase := rfl
@[simp] theorem State.returning_stop (x : Result) (s : State) : (s.returning x).stop = s.stop := rfl
@[simp] theorem State.returning_fault (x : Result) (s : State) : (s.returning x).fault = s.fault := rfl
@[simp] theorem State.returning_inited (x : Result) (s : State) : (s.returning x).inited = s.inited := rfl
@[simp] theorem State.returning_smpHave (x : Result) (s : State) : (s.returning x).smpHave = s.smpHave := rfl
@[simp] theorem State.returning_smpLast (x : Result) (s : State) : (s.returning x).smpLast = s.smpLast := rfl
@[simp] theorem State.returning_phy (x : Result) (s : State) : (s.returning x).phy = s.phy := rfl
@[simp] theorem State.returning_outStream (x : Result) (s : State) : (s.returning x).outStream = s.outStream := rfl
@[simp] theorem State.returning_phase (x : Result) (s : State) : (s.returning x).phase = s.phase := rfl
@[simp] theorem State.returning_samplerOn (x : Result) (s : State) : (s.returning x).samplerOn = s.samplerOn := rfl
@[simp] theorem State.returning_exitStatus (x : Result) (s : State) : (s.returning x).exitStatus = s.exitStatus := rfl
@[simp] theorem State.returning_events (x : Result) (s : State) : (s.returning x).events = s.events := rfl
@[simp] theorem State.returning_ret (x : Result) (s : State) : (s.returning x).ret = x := rfl
@[simp] theorem State.returning_issue (x : Result) (s : State) : (s.returning x).issue = s.issue := rfl
@[simp] theorem State.returning_draws (x : Result) (s : State) : (s.returning x).draws = s.draws := rfl
@[simp] theorem State.returning_inCalls (x : Result) (s : State) : (s.returning x).inCalls = s.inCalls := rfl
@[simp] theorem State.returning_inSinks (x : Result) (s : State) : (s.returning x).inSinks = s.inSinks := rfl
@[simp] theorem State.returning_inMetrics (x : Result) (s : State) : (s.returning x).inMetrics = s.inMetrics := rfl
@[simp] theorem State.returning_inRecords (x : Result) (s : State) : (s.returning x).inRecords = s.inRecords := rfl
@[simp] theorem State.returning_inAgents (x : Result) (s : State) : (s.returning x).inAgents = s.inAgents := rfl

/-! `State.raise` -/

@[simp] theorem State.raise_ls (c : FatalCause) (s : State) : (s.raise c).ls = s.ls := rfl
@[simp] theorem State.raise_frR (c : FatalCause) (s : State) : (s.raise c).frR = s.frR := rfl
@[simp] theorem State.raise_frG (c : FatalCause) (s : State) : (s.raise c).frG = s.frG := rfl
@[simp] theorem State.raise_frB (c : FatalCause) (s : State) : (s.raise c).frB = s.frB := rfl
@[simp] theorem State.raise_out (c : FatalCause) (s : State) : (s.raise c).out = s.out := rfl
@[simp] theorem State.raise_pos (c : FatalCause) (s : State) : (s.raise c).pos = s.pos := rfl
@[simp] theorem State.raise_mode (c : FatalCause) (s : State) : (s.raise c).mode = s.mode := rfl
@[simp] theorem State.raise_speed (c : FatalCause) (s : State) : (s.raise c).speed = s.speed := rfl
@[simp] theorem State.raise_color (c : FatalCause) (s : State) : (s.raise c).color = s.color := rfl
@[simp] theorem State.raise_beat (c : FatalCause) (s : State) : (s.raise c).beat = s.beat := rfl
@[simp] theorem State.raise_throb (c : FatalCause) (s : State) : (s.raise c).throb = s.throb := rfl
@[simp] theorem State.raise_simulate (c : FatalCause) (s : State) : (s.raise c).simulate = s.simulate := rfl
@[simp] theorem State.raise_debug (c : FatalCause) (s : State) : (s.raise c).debug = s.debug := rfl
@[simp] theorem State.raise_smoothedLoad (c : FatalCause) (s : State) : (s.raise c).smoothedLoad = s.smoothedLoad := rfl
@[simp] theorem State.raise_renderedLoad (c : FatalCause) (s : State) : (s.raise c).renderedLoad = s.renderedLoad := rfl
@[simp] theorem State.raise_tickBeat (c : FatalCause) (s : State) : (s.raise c).tickBeat = s.tickBeat := rfl
@[simp] theorem State.raise_tickThrob (c : FatalCause) (s : State) : (s.raise c).tickThrob = s.tickThrob := rfl
@[simp] theorem State.raise_tickPulse (c : FatalCause) (s : State) : (s.raise c).tickPulse = s.tickPulse := rfl
@[simp] theorem State.raise_ccIndex (c : FatalCause) (s : State) : (s.raise c).ccIndex = s.ccIndex := rfl
@[simp] theorem State.raise_ccStep (c : FatalCause) (s : State) : (s.raise c).ccStep = s.ccStep := rfl
@[simp] theorem State.raise_stPhase (c : FatalCause) (s : State) : (s.raise c).stPhase = s.stPhase := rfl
@[simp] theorem State.raise_stop (c : FatalCause) (s : State) : (s.raise c).stop = s.stop := rfl
@[simp] theorem State.raise_fault (c : FatalCause) (s : State) : (s.raise c).fault = some c := rfl
@[simp] theorem State.raise_inited (c : FatalCause) (s : State) : (s.raise c).inited = s.inited := rfl
@[simp] theorem State.raise_smpHave (c : FatalCause) (s : State) : (s.raise c).smpHave = s.smpHave := rfl
@[simp] theorem State.raise_smpLast (c : FatalCause) (s : State) : (s.raise c).smpLast = s.smpLast := rfl
@[simp] theorem State.raise_phy (c : FatalCause) (s : State) : (s.raise c).phy = s.phy := rfl
@[simp] theorem State.raise_outStream (c : FatalCause) (s : State) : (s.raise c).outStream = s.outStream := rfl
@[simp] theorem State.raise_phase (c : FatalCause) (s : State) : (s.raise c).phase = s.phase := rfl
@[simp] theorem State.raise_samplerOn (c : FatalCause) (s : State) : (s.raise c).samplerOn = s.samplerOn := rfl
@[simp] theorem State.raise_exitStatus (c : FatalCause) (s : State) : (s.raise c).exitStatus = s.exitStatus := rfl
@[simp] theorem State.raise_events (c : FatalCause) (s : State) : (s.raise c).events = s.events ++ [.message c (Config.messageText c)] := rfl
@[simp] theorem State.raise_ret (c : FatalCause) (s : State) : (s.raise c).ret = s.ret := rfl
@[simp] theorem State.raise_issue (c : FatalCause) (s : State) : (s.raise c).issue = s.issue := rfl
@[simp] theorem State.raise_draws (c : FatalCause) (s : State) : (s.raise c).draws = s.draws := rfl
@[simp] theorem State.raise_inCalls (c : FatalCause) (s : State) : (s.raise c).inCalls = s.inCalls := rfl
@[simp] theorem State.raise_inSinks (c : FatalCause) (s : State) : (s.raise c).inSinks = s.inSinks := rfl
@[simp] theorem State.raise_inMetrics (c : FatalCause) (s : State) : (s.raise c).inMetrics = s.inMetrics := rfl
@[simp] theorem State.raise_inRecords (c : FatalCause) (s : State) : (s.raise c).inRecords = s.inRecords := rfl
@[simp] theorem State.raise_inAgents (c : FatalCause) (s : State) : (s.raise c).inAgents = s.inAgents := rfl

/-! `State.appendOutStream` -/

@[simp] theorem State.appendOutStream_ls (bytes : List Byte) (s : State) : (s.appendOutStream bytes).ls = s.ls := rfl
@[simp] theorem State.appendOutStream_frR (bytes : List Byte) (s : State) : (s.appendOutStream bytes).frR = s.frR := rfl
@[simp] theorem State.appendOutStream_frG (bytes : List Byte) (s : State) : (s.appendOutStream bytes).frG = s.frG := rfl
@[simp] theorem State.appendOutStream_frB (bytes : List Byte) (s : State) : (s.appendOutStream bytes).frB = s.frB := rfl
@[simp] theorem State.appendOutStream_out (bytes : List Byte) (s : State) : (s.appendOutStream bytes).out = s.out := rfl
@[simp] theorem State.appendOutStream_pos (bytes : List Byte) (s : State) : (s.appendOutStream bytes).pos = s.pos := rfl
@[simp] theorem State.appendOutStream_mode (bytes : List Byte) (s : State) : (s.appendOutStream bytes).mode = s.mode := rfl
@[simp] theorem State.appendOutStream_speed (bytes : List Byte) (s : State) : (s.appendOutStream bytes).speed = s.speed := rfl
@[simp] theorem State.appendOutStream_color (bytes : List Byte) (s : State) : (s.appendOutStream bytes).color = s.color := rfl
@[simp] theorem State.appendOutStream_beat (bytes : List Byte) (s : State) : (s.appendOutStream bytes).beat = s.beat := rfl
@[simp] theorem State.appendOutStream_throb (bytes : List Byte) (s : State) : (s.appendOutStream bytes).throb = s.throb := rfl
@[simp] theorem State.appendOutStream_simulate (bytes : List Byte) (s : State) : (s.appendOutStream bytes).simulate = s.simulate := rfl
@[simp] theorem State.appendOutStream_debug (bytes : List Byte) (s : State) : (s.appendOutStream bytes).debug = s.debug := rfl
@[simp] theorem State.appendOutStream_smoothedLoad (bytes : List Byte) (s : State) : (s.appendOutStream bytes).smoothedLoad = s.smoothedLoad := rfl
@[simp] theorem State.appendOutStream_renderedLoad (bytes : List Byte) (s : State) : (s.appendOutStream bytes).renderedLoad = s.renderedLoad := rfl
@[simp] theorem State.appendOutStream_tickBeat (bytes : List Byte) (s : State) : (s.appendOutStream bytes).tickBeat = s.tickBeat := rfl
@[simp] theorem State.appendOutStream_tickThrob (bytes : List Byte) (s : State) : (s.appendOutStream bytes).tickThrob = s.tickThrob := rfl
@[simp] theorem State.appendOutStream_tickPulse (bytes : List Byte) (s : State) : (s.appendOutStream bytes).tickPulse = s.tickPulse := rfl
@[simp] theorem State.appendOutStream_ccIndex (bytes : List Byte) (s : State) : (s.appendOutStream bytes).ccIndex = s.ccIndex := rfl
@[simp] theorem State.appendOutStream_ccStep (bytes : List Byte) (s : State) : (s.appendOutStream bytes).ccStep = s.ccStep := rfl
@[simp] theorem State.appendOutStream_stPhase (bytes : List Byte) (s : State) : (s.appendOutStream bytes).stPhase = s.stPhase := rfl
@[simp] theorem State.appendOutStream_stop (bytes : List Byte) (s : State) : (s.appendOutStream bytes).stop = s.stop := rfl
@[simp] theorem State.appendOutStream_fault (bytes : List Byte) (s : State) : (s.appendOutStream bytes).fault = s.fault := rfl
@[simp] theorem State.appendOutStream_inited (bytes : List Byte) (s : State) : (s.appendOutStream bytes).inited = s.inited := rfl
@[simp] theorem State.appendOutStream_smpHave (bytes : List Byte) (s : State) : (s.appendOutStream bytes).smpHave = s.smpHave := rfl
@[simp] theorem State.appendOutStream_smpLast (bytes : List Byte) (s : State) : (s.appendOutStream bytes).smpLast = s.smpLast := rfl
@[simp] theorem State.appendOutStream_phy (bytes : List Byte) (s : State) : (s.appendOutStream bytes).phy = s.phy := rfl
@[simp] theorem State.appendOutStream_outStream (bytes : List Byte) (s : State) : (s.appendOutStream bytes).outStream = s.outStream ++ bytes := rfl
@[simp] theorem State.appendOutStream_phase (bytes : List Byte) (s : State) : (s.appendOutStream bytes).phase = s.phase := rfl
@[simp] theorem State.appendOutStream_samplerOn (bytes : List Byte) (s : State) : (s.appendOutStream bytes).samplerOn = s.samplerOn := rfl
@[simp] theorem State.appendOutStream_exitStatus (bytes : List Byte) (s : State) : (s.appendOutStream bytes).exitStatus = s.exitStatus := rfl
@[simp] theorem State.appendOutStream_events (bytes : List Byte) (s : State) : (s.appendOutStream bytes).events = s.events := rfl
@[simp] theorem State.appendOutStream_ret (bytes : List Byte) (s : State) : (s.appendOutStream bytes).ret = s.ret := rfl
@[simp] theorem State.appendOutStream_issue (bytes : List Byte) (s : State) : (s.appendOutStream bytes).issue = s.issue := rfl
@[simp] theorem State.appendOutStream_draws (bytes : List Byte) (s : State) : (s.appendOutStream bytes).draws = s.draws := rfl
@[simp] theorem State.appendOutStream_inCalls (bytes : List Byte) (s : State) : (s.appendOutStream bytes).inCalls = s.inCalls := rfl
@[simp] theorem State.appendOutStream_inSinks (bytes : List Byte) (s : State) : (s.appendOutStream bytes).inSinks = s.inSinks := rfl
@[simp] theorem State.appendOutStream_inMetrics (bytes : List Byte) (s : State) : (s.appendOutStream bytes).inMetrics = s.inMetrics := rfl
@[simp] theorem State.appendOutStream_inRecords (bytes : List Byte) (s : State) : (s.appendOutStream bytes).inRecords = s.inRecords := rfl
@[simp] theorem State.appendOutStream_inAgents (bytes : List Byte) (s : State) : (s.appendOutStream bytes).inAgents = s.inAgents := rfl

/-! `State.writeLoadCell` -/

@[simp] theorem State.writeLoadCell_ls (p : Nat) (s : State) : (s.writeLoadCell p).ls = s.ls := rfl
@[simp] theorem State.writeLoadCell_frR (p : Nat) (s : State) : (s.writeLoadCell p).frR = s.frR := rfl
@[simp] theorem State.writeLoadCell_frG (p : Nat) (s : State) : (s.writeLoadCell p).frG = s.frG := rfl
@[simp] theorem State.writeLoadCell_frB (p : Nat) (s : State) : (s.writeLoadCell p).frB = s.frB := rfl
@[simp] theorem State.writeLoadCell_out (p : Nat) (s : State) : (s.writeLoadCell p).out = s.out := rfl
@[simp] theorem State.writeLoadCell_pos (p : Nat) (s : State) : (s.writeLoadCell p).pos = s.pos := rfl
@[simp] theorem State.writeLoadCell_mode (p : Nat) (s : State) : (s.writeLoadCell p).mode = s.mode := rfl
@[simp] theorem State.writeLoadCell_speed (p : Nat) (s : State) : (s.writeLoadCell p).speed = s.speed := rfl
@[simp] theorem State.writeLoadCell_color (p : Nat) (s : State) : (s.writeLoadCell p).color = s.color := rfl
@[simp] theorem State.writeLoadCell_beat (p : Nat) (s : State) : (s.writeLoadCell p).beat = s.beat := rfl
@[simp] theorem State.writeLoadCell_throb (p : Nat) (s : State) : (s.writeLoadCell p).throb = s.throb := rfl
@[simp] theorem State.writeLoadCell_simulate (p : Nat) (s : State) : (s.writeLoadCell p).simulate = s.simulate := rfl
@[simp] theorem State.writeLoadCell_debug (p : Nat) (s : State) : (s.writeLoadCell p).debug = s.debug := rfl
@[simp] theorem State.writeLoadCell_smoothedLoad (p : Nat) (s : State) : (s.writeLoadCell p).smoothedLoad = p := rfl
@[simp] theorem State.writeLoadCell_renderedLoad (p : Nat) (s : State) : (s.writeLoadCell p).renderedLoad = s.renderedLoad := rfl
@[simp] theorem State.writeLoadCell_tickBeat (p : Nat) (s : State) : (s.writeLoadCell p).tickBeat = s.tickBeat := rfl
@[simp] theorem State.writeLoadCell_tickThrob (p : Nat) (s : State) : (s.writeLoadCell p).tickThrob = s.tickThrob := rfl
@[simp] theorem State.writeLoadCell_tickPulse (p : Nat) (s : State) : (s.writeLoadCell p).tickPulse = s.tickPulse := rfl
@[simp] theorem State.writeLoadCell_ccIndex (p : Nat) (s : State) : (s.writeLoadCell p).ccIndex = s.ccIndex := rfl
@[simp] theorem State.writeLoadCell_ccStep (p : Nat) (s : State) : (s.writeLoadCell p).ccStep = s.ccStep := rfl
@[simp] theorem State.writeLoadCell_stPhase (p : Nat) (s : State) : (s.writeLoadCell p).stPhase = s.stPhase := rfl
@[simp] theorem State.writeLoadCell_stop (p : Nat) (s : State) : (s.writeLoadCell p).stop = s.stop := rfl
@[simp] theorem State.writeLoadCell_fault (p : Nat) (s : State) : (s.writeLoadCell p).fault = s.fault := rfl
@[simp] theorem State.writeLoadCell_inited (p : Nat) (s : State) : (s.writeLoadCell p).inited = s.inited := rfl
@[simp] theorem State.writeLoadCell_smpHave (p : Nat) (s : State) : (s.writeLoadCell p).smpHave = s.smpHave := rfl
@[simp] theorem State.writeLoadCell_smpLast (p : Nat) (s : State) : (s.writeLoadCell p).smpLast = s.smpLast := rfl
@[simp] theorem State.writeLoadCell_phy (p : Nat) (s : State) : (s.writeLoadCell p).phy = s.phy := rfl
@[simp] theorem State.writeLoadCell_outStream (p : Nat) (s : State) : (s.writeLoadCell p).outStream = s.outStream := rfl
@[simp] theorem State.writeLoadCell_phase (p : Nat) (s : State) : (s.writeLoadCell p).phase = s.phase := rfl
@[simp] theorem State.writeLoadCell_samplerOn (p : Nat) (s : State) : (s.writeLoadCell p).samplerOn = s.samplerOn := rfl
@[simp] theorem State.writeLoadCell_exitStatus (p : Nat) (s : State) : (s.writeLoadCell p).exitStatus = s.exitStatus := rfl
@[simp] theorem State.writeLoadCell_events (p : Nat) (s : State) : (s.writeLoadCell p).events = s.events := rfl
@[simp] theorem State.writeLoadCell_ret (p : Nat) (s : State) : (s.writeLoadCell p).ret = s.ret := rfl
@[simp] theorem State.writeLoadCell_issue (p : Nat) (s : State) : (s.writeLoadCell p).issue = s.issue := rfl
@[simp] theorem State.writeLoadCell_draws (p : Nat) (s : State) : (s.writeLoadCell p).draws = s.draws := rfl
@[simp] theorem State.writeLoadCell_inCalls (p : Nat) (s : State) : (s.writeLoadCell p).inCalls = s.inCalls := rfl
@[simp] theorem State.writeLoadCell_inSinks (p : Nat) (s : State) : (s.writeLoadCell p).inSinks = s.inSinks := rfl
@[simp] theorem State.writeLoadCell_inMetrics (p : Nat) (s : State) : (s.writeLoadCell p).inMetrics = s.inMetrics := rfl
@[simp] theorem State.writeLoadCell_inRecords (p : Nat) (s : State) : (s.writeLoadCell p).inRecords = s.inRecords := rfl
@[simp] theorem State.writeLoadCell_inAgents (p : Nat) (s : State) : (s.writeLoadCell p).inAgents = s.inAgents := rfl

/-! `State.freeWires` -/

@[simp] theorem State.freeWires_ls (s : State) : (s.freeWires).ls = s.ls := rfl
@[simp] theorem State.freeWires_frR (s : State) : (s.freeWires).frR = s.frR := rfl
@[simp] theorem State.freeWires_frG (s : State) : (s.freeWires).frG = s.frG := rfl
@[simp] theorem State.freeWires_frB (s : State) : (s.freeWires).frB = s.frB := rfl
@[simp] theorem State.freeWires_out (s : State) : (s.freeWires).out = s.out := rfl
@[simp] theorem State.freeWires_pos (s : State) : (s.freeWires).pos = s.pos := rfl
@[simp] theorem State.freeWires_mode (s : State) : (s.freeWires).mode = s.mode := rfl
@[simp] theorem State.freeWires_speed (s : State) : (s.freeWires).speed = s.speed := rfl
@[simp] theorem State.freeWires_color (s : State) : (s.freeWires).color = s.color := rfl
@[simp] theorem State.freeWires_beat (s : State) : (s.freeWires).beat = s.beat := rfl
@[simp] theorem State.freeWires_throb (s : State) : (s.freeWires).throb = s.throb := rfl
@[simp] theorem State.freeWires_simulate (s : State) : (s.freeWires).simulate = s.simulate := rfl
@[simp] theorem State.freeWires_debug (s : State) : (s.freeWires).debug = s.debug := rfl
@[simp] theorem State.freeWires_smoothedLoad (s : State) : (s.freeWires).smoothedLoad = s.smoothedLoad := rfl
@[simp] theorem State.freeWires_renderedLoad (s : State) : (s.freeWires).renderedLoad = s.renderedLoad := rfl
@[simp] theorem State.freeWires_tickBeat (s : State) : (s.freeWires).tickBeat = s.tickBeat := rfl
@[simp] theorem State.freeWires_tickThrob (s : State) : (s.freeWires).tickThrob = s.tickThrob := rfl
@[simp] theorem State.freeWires_tickPulse (s : State) : (s.freeWires).tickPulse = s.tickPulse := rfl
@[simp] theorem State.freeWires_ccIndex (s : State) : (s.freeWires).ccIndex = s.ccIndex := rfl
@[simp] theorem State.freeWires_ccStep (s : State) : (s.freeWires).ccStep = s.ccStep := rfl
@[simp] theorem State.freeWires_stPhase (s : State) : (s.freeWires).stPhase = s.stPhase := rfl
@[simp] theorem State.freeWires_stop (s : State) : (s.freeWires).stop = s.stop := rfl
@[simp] theorem State.freeWires_fault (s : State) : (s.freeWires).fault = s.fault := rfl
@[simp] theorem State.freeWires_inited (s : State) : (s.freeWires).inited = s.inited := rfl
@[simp] theorem State.freeWires_smpHave (s : State) : (s.freeWires).smpHave = s.smpHave := rfl
@[simp] theorem State.freeWires_smpLast (s : State) : (s.freeWires).smpLast = s.smpLast := rfl
@[simp] theorem State.freeWires_phy (s : State) : (s.freeWires).phy = Config.wires s.draws := rfl
@[simp] theorem State.freeWires_outStream (s : State) : (s.freeWires).outStream = s.outStream := rfl
@[simp] theorem State.freeWires_phase (s : State) : (s.freeWires).phase = s.phase := rfl
@[simp] theorem State.freeWires_samplerOn (s : State) : (s.freeWires).samplerOn = s.samplerOn := rfl
@[simp] theorem State.freeWires_exitStatus (s : State) : (s.freeWires).exitStatus = s.exitStatus := rfl
@[simp] theorem State.freeWires_events (s : State) : (s.freeWires).events = s.events := rfl
@[simp] theorem State.freeWires_ret (s : State) : (s.freeWires).ret = s.ret := rfl
@[simp] theorem State.freeWires_issue (s : State) : (s.freeWires).issue = s.issue := rfl
@[simp] theorem State.freeWires_draws (s : State) : (s.freeWires).draws = s.draws + 1 := rfl
@[simp] theorem State.freeWires_inCalls (s : State) : (s.freeWires).inCalls = s.inCalls := rfl
@[simp] theorem State.freeWires_inSinks (s : State) : (s.freeWires).inSinks = s.inSinks := rfl
@[simp] theorem State.freeWires_inMetrics (s : State) : (s.freeWires).inMetrics = s.inMetrics := rfl
@[simp] theorem State.freeWires_inRecords (s : State) : (s.freeWires).inRecords = s.inRecords := rfl
@[simp] theorem State.freeWires_inAgents (s : State) : (s.freeWires).inAgents = s.inAgents := rfl

/-! `State.cpuTick` -/

@[simp] theorem State.cpuTick_ls (s : State) : (s.cpuTick).ls = s.ls := rfl
@[simp] theorem State.cpuTick_frR (s : State) : (s.cpuTick).frR = s.frR := rfl
@[simp] theorem State.cpuTick_frG (s : State) : (s.cpuTick).frG = s.frG := rfl
@[simp] theorem State.cpuTick_frB (s : State) : (s.cpuTick).frB = s.frB := rfl
@[simp] theorem State.cpuTick_out (s : State) : (s.cpuTick).out = s.out := rfl
@[simp] theorem State.cpuTick_pos (s : State) : (s.cpuTick).pos = s.pos := rfl
@[simp] theorem State.cpuTick_mode (s : State) : (s.cpuTick).mode = s.mode := rfl
@[simp] theorem State.cpuTick_speed (s : State) : (s.cpuTick).speed = s.speed := rfl
@[simp] theorem State.cpuTick_color (s : State) : (s.cpuTick).color = s.color := rfl
@[simp] theorem State.cpuTick_beat (s : State) : (s.cpuTick).beat = s.beat := rfl
@[simp] theorem State.cpuTick_throb (s : State) : (s.cpuTick).throb = s.throb := rfl
@[simp] theorem State.cpuTick_simulate (s : State) : (s.cpuTick).simulate = s.simulate := rfl
@[simp] theorem State.cpuTick_debug (s : State) : (s.cpuTick).debug = s.debug := rfl
@[simp] theorem State.cpuTick_smoothedLoad (s : State) : (s.cpuTick).smoothedLoad = s.smoothedLoad := rfl
@[simp] theorem State.cpuTick_renderedLoad (s : State) : (s.cpuTick).renderedLoad = follow s.renderedLoad s.readLoadCell := rfl
@[simp] theorem State.cpuTick_tickBeat (s : State) : (s.cpuTick).tickBeat = s.tickBeat + 1 := rfl
@[simp] theorem State.cpuTick_tickThrob (s : State) : (s.cpuTick).tickThrob = s.tickThrob + 1 := rfl
@[simp] theorem State.cpuTick_tickPulse (s : State) : (s.cpuTick).tickPulse = s.tickPulse := rfl
@[simp] theorem State.cpuTick_ccIndex (s : State) : (s.cpuTick).ccIndex = s.ccIndex := rfl
@[simp] theorem State.cpuTick_ccStep (s : State) : (s.cpuTick).ccStep = s.ccStep := rfl
@[simp] theorem State.cpuTick_stPhase (s : State) : (s.cpuTick).stPhase = s.stPhase := rfl
@[simp] theorem State.cpuTick_stop (s : State) : (s.cpuTick).stop = s.stop := rfl
@[simp] theorem State.cpuTick_fault (s : State) : (s.cpuTick).fault = s.fault := rfl
@[simp] theorem State.cpuTick_inited (s : State) : (s.cpuTick).inited = s.inited := rfl
@[simp] theorem State.cpuTick_smpHave (s : State) : (s.cpuTick).smpHave = s.smpHave := rfl
@[simp] theorem State.cpuTick_smpLast (s : State) : (s.cpuTick).smpLast = s.smpLast := rfl
@[simp] theorem State.cpuTick_phy (s : State) : (s.cpuTick).phy = s.phy := rfl
@[simp] theorem State.cpuTick_outStream (s : State) : (s.cpuTick).outStream = s.outStream := rfl
@[simp] theorem State.cpuTick_phase (s : State) : (s.cpuTick).phase = s.phase := rfl
@[simp] theorem State.cpuTick_samplerOn (s : State) : (s.cpuTick).samplerOn = s.samplerOn := rfl
@[simp] theorem State.cpuTick_exitStatus (s : State) : (s.cpuTick).exitStatus = s.exitStatus := rfl
@[simp] theorem State.cpuTick_events (s : State) : (s.cpuTick).events = s.events := rfl
@[simp] theorem State.cpuTick_ret (s : State) : (s.cpuTick).ret = s.ret := rfl
@[simp] theorem State.cpuTick_issue (s : State) : (s.cpuTick).issue = s.issue := rfl
@[simp] theorem State.cpuTick_draws (s : State) : (s.cpuTick).draws = s.draws := rfl
@[simp] theorem State.cpuTick_inCalls (s : State) : (s.cpuTick).inCalls = s.inCalls := rfl
@[simp] theorem State.cpuTick_inSinks (s : State) : (s.cpuTick).inSinks = s.inSinks := rfl
@[simp] theorem State.cpuTick_inMetrics (s : State) : (s.cpuTick).inMetrics = s.inMetrics := rfl
@[simp] theorem State.cpuTick_inRecords (s : State) : (s.cpuTick).inRecords = s.inRecords := rfl
@[simp] theorem State.cpuTick_inAgents (s : State) : (s.cpuTick).inAgents = s.inAgents := rfl

/-! `State.pulseTick` -/

@[simp] theorem State.pulseTick_ls (s : State) : (s.pulseTick).ls = s.ls := rfl
@[simp] theorem State.pulseTick_frR (s : State) : (s.pulseTick).frR = s.frR := rfl
@[simp] theorem State.pulseTick_frG (s : State) : (s.pulseTick).frG = s.frG := rfl
@[simp] theorem State.pulseTick_frB (s : State) : (s.pulseTick).frB = s.frB := rfl
@[simp] theorem State.pulseTick_out (s : State) : (s.pulseTick).out = s.out := rfl
@[simp] theorem State.pulseTick_pos (s : State) : (s.pulseTick).pos = s.pos := rfl
@[simp] theorem State.pulseTick_mode (s : State) : (s.pulseTick).mode = s.mode := rfl
@[simp] theorem State.pulseTick_speed (s : State) : (s.pulseTick).speed = s.speed := rfl
@[simp] theorem State.pulseTick_color (s : State) : (s.pulseTick).color = s.color := rfl
@[simp] theorem State.pulseTick_beat (s : State) : (s.pulseTick).beat = s.beat := rfl
@[simp] theorem State.pulseTick_throb (s : State) : (s.pulseTick).throb = s.throb := rfl
@[simp] theorem State.pulseTick_simulate (s : State) : (s.pulseTick).simulate = s.simulate := rfl
@[simp] theorem State.pulseTick_debug (s : State) : (s.pulseTick).debug = s.debug := rfl
@[simp] theorem State.pulseTick_smoothedLoad (s : State) : (s.pulseTick).smoothedLoad = s.smoothedLoad := rfl
@[simp] theorem State.pulseTick_renderedLoad (s : State) : (s.pulseTick).renderedLoad = s.renderedLoad := rfl
@[simp] theorem State.pulseTick_tickBeat (s : State) : (s.pulseTick).tickBeat = s.tickBeat := rfl
@[simp] theorem State.pulseTick_tickThrob (s : State) : (s.pulseTick).tickThrob = s.tickThrob := rfl
@[simp] theorem State.pulseTick_tickPulse (s : State) : (s.pulseTick).tickPulse = s.tickPulse + 1 := rfl
@[simp] theorem State.pulseTick_ccIndex (s : State) : (s.pulseTick).ccIndex = s.ccIndex := rfl
@[simp] theorem State.pulseTick_ccStep (s : State) : (s.pulseTick).ccStep = s.ccStep := rfl
@[simp] theorem State.pulseTick_stPhase (s : State) : (s.pulseTick).stPhase = s.stPhase := rfl
@[simp] theorem State.pulseTick_stop (s : State) : (s.pulseTick).stop = s.stop := rfl
@[simp] theorem State.pulseTick_fault (s : State) : (s.pulseTick).fault = s.fault := rfl
@[simp] theorem State.pulseTick_inited (s : State) : (s.pulseTick).inited = s.inited := rfl
@[simp] theorem State.pulseTick_smpHave (s : State) : (s.pulseTick).smpHave = s.smpHave := rfl
@[simp] theorem State.pulseTick_smpLast (s : State) : (s.pulseTick).smpLast = s.smpLast := rfl
@[simp] theorem State.pulseTick_phy (s : State) : (s.pulseTick).phy = s.phy := rfl
@[simp] theorem State.pulseTick_outStream (s : State) : (s.pulseTick).outStream = s.outStream := rfl
@[simp] theorem State.pulseTick_phase (s : State) : (s.pulseTick).phase = s.phase := rfl
@[simp] theorem State.pulseTick_samplerOn (s : State) : (s.pulseTick).samplerOn = s.samplerOn := rfl
@[simp] theorem State.pulseTick_exitStatus (s : State) : (s.pulseTick).exitStatus = s.exitStatus := rfl
@[simp] theorem State.pulseTick_events (s : State) : (s.pulseTick).events = s.events := rfl
@[simp] theorem State.pulseTick_ret (s : State) : (s.pulseTick).ret = s.ret := rfl
@[simp] theorem State.pulseTick_issue (s : State) : (s.pulseTick).issue = s.issue := rfl
@[simp] theorem State.pulseTick_draws (s : State) : (s.pulseTick).draws = s.draws := rfl
@[simp] theorem State.pulseTick_inCalls (s : State) : (s.pulseTick).inCalls = s.inCalls := rfl
@[simp] theorem State.pulseTick_inSinks (s : State) : (s.pulseTick).inSinks = s.inSinks := rfl
@[simp] theorem State.pulseTick_inMetrics (s : State) : (s.pulseTick).inMetrics = s.inMetrics := rfl
@[simp] theorem State.pulseTick_inRecords (s : State) : (s.pulseTick).inRecords = s.inRecords := rfl
@[simp] theorem State.pulseTick_inAgents (s : State) : (s.pulseTick).inAgents = s.inAgents := rfl

/-! `State.startSampler` -/

@[simp] theorem State.startSampler_ls (s : State) : (s.startSampler).ls = s.ls := rfl
@[simp] theorem State.startSampler_frR (s : State) : (s.startSampler).frR = s.frR := rfl
@[simp] theorem State.startSampler_frG (s : State) : (s.startSampler).frG = s.frG := rfl
@[simp] theorem State.startSampler_frB (s : State) : (s.startSampler).frB = s.frB := rfl
@[simp] theorem State.startSampler_out (s : State) : (s.startSampler).out = s.out := rfl
@[simp] theorem State.startSampler_pos (s : State) : (s.startSampler).pos = s.pos := rfl
@[simp] theorem State.startSampler_mode (s : State) : (s.startSampler).mode = s.mode := rfl
@[simp] theorem State.startSampler_speed (s : State) : (s.startSampler).speed = s.speed := rfl
@[simp] theorem State.startSampler_color (s : State) : (s.startSampler).color = s.color := rfl
@[simp] theorem State.startSampler_beat (s : State) : (s.startSampler).beat = s.beat := rfl
@[simp] theorem State.startSampler_throb (s : State) : (s.startSampler).throb = s.throb := rfl
@[simp] theorem State.startSampler_simulate (s : State) : (s.startSampler).simulate = s.simulate := rfl
@[simp] theorem State.startSampler_debug (s : State) : (s.startSampler).debug = s.debug := rfl
@[simp] theorem State.startSampler_smoothedLoad (s : State) : (s.startSampler).smoothedLoad = s.smoothedLoad := rfl
@[simp] theorem State.startSampler_renderedLoad (s : State) : (s.startSampler).renderedLoad = s.renderedLoad := rfl
@[simp] theorem State.startSampler_tickBeat (s : State) : (s.startSampler).tickBeat = s.tickBeat := rfl
@[simp] theorem State.startSampler_tickThrob (s : State) : (s.startSampler).tickThrob = s.tickThrob := rfl
@[simp] theorem State.startSampler_tickPulse (s : State) : (s.startSampler).tickPulse = s.tickPulse := rfl
@[simp] theorem State.startSampler_ccIndex (s : State) : (s.startSampler).ccIndex = s.ccIndex := rfl
@[simp] theorem State.startSampler_ccStep (s : State) : (s.startSampler).ccStep = s.ccStep := rfl
@[simp] theorem State.startSampler_stPhase (s : State) : (s.startSampler).stPhase = s.stPhase := rfl
@[simp] theorem State.startSampler_stop (s : State) : (s.startSampler).stop = s.stop := rfl
@[simp] theorem State.startSampler_fault (s : State) : (s.startSampler).fault = s.fault := rfl
@[simp] theorem State.startSampler_inited (s : State) : (s.startSampler).inited = s.inited := rfl
@[simp] theorem State.startSampler_smpHave (s : State) : (s.startSampler).smpHave = s.smpHave := rfl
@[simp] theorem State.startSampler_smpLast (s : State) : (s.startSampler).smpLast = s.smpLast := rfl
@[simp] theorem State.startSampler_phy (s : State) : (s.startSampler).phy = s.phy := rfl
@[simp] theorem State.startSampler_outStream (s : State) : (s.startSampler).outStream = s.outStream := rfl
@[simp] theorem State.startSampler_phase (s : State) : (s.startSampler).phase = .looping := rfl
@[simp] theorem State.startSampler_samplerOn (s : State) : (s.startSampler).samplerOn = true := rfl
@[simp] theorem State.startSampler_exitStatus (s : State) : (s.startSampler).exitStatus = s.exitStatus := rfl
@[simp] theorem State.startSampler_events (s : State) : (s.startSampler).events = s.events := rfl
@[simp] theorem State.startSampler_ret (s : State) : (s.startSampler).ret = s.ret := rfl
@[simp] theorem State.startSampler_issue (s : State) : (s.startSampler).issue = s.issue := rfl
@[simp] theorem State.startSampler_draws (s : State) : (s.startSampler).draws = s.draws := rfl
@[simp] theorem State.startSampler_inCalls (s : State) : (s.startSampler).inCalls = s.inCalls := rfl
@[simp] theorem State.startSampler_inSinks (s : State) : (s.startSampler).inSinks = s.inSinks := rfl
@[simp] theorem State.startSampler_inMetrics (s : State) : (s.startSampler).inMetrics = s.inMetrics := rfl
@[simp] theorem State.startSampler_inRecords (s : State) : (s.startSampler).inRecords = s.inRecords := rfl
@[simp] theorem State.startSampler_inAgents (s : State) : (s.startSampler).inAgents = s.inAgents := rfl

/-! `State.endRun` -/

@[simp] theorem State.endRun_ls (status : Int) (s : State) : (s.endRun status).ls = s.ls := rfl
@[simp] theorem State.endRun_frR (status : Int) (s : State) : (s.endRun status).frR = s.frR := rfl
@[simp] theorem State.endRun_frG (status : Int) (s : State) : (s.endRun status).frG = s.frG := rfl
@[simp] theorem State.endRun_frB (status : Int) (s : State) : (s.endRun status).frB = s.frB := rfl
@[simp] theorem State.endRun_out (status : Int) (s : State) : (s.endRun status).out = s.out := rfl
@[simp] theorem State.endRun_pos (status : Int) (s : State) : (s.endRun status).pos = s.pos := rfl
@[simp] theorem State.endRun_mode (status : Int) (s : State) : (s.endRun status).mode = s.mode := rfl
@[simp] theorem State.endRun_speed (status : Int) (s : State) : (s.endRun status).speed = s.speed := rfl
@[simp] theorem State.endRun_color (status : Int) (s : State) : (s.endRun status).color = s.color := rfl
@[simp] theorem State.endRun_beat (status : Int) (s : State) : (s.endRun status).beat = s.beat := rfl
@[simp] theorem State.endRun_throb (status : Int) (s : State) : (s.endRun status).throb = s.throb := rfl
@[simp] theorem State.endRun_simulate (status : Int) (s : State) : (s.endRun status).simulate = s.simulate := rfl
@[simp] theorem State.endRun_debug (status : Int) (s : State) : (s.endRun status).debug = s.debug := rfl
@[simp] theorem State.endRun_smoothedLoad (status : Int) (s : State) : (s.endRun status).smoothedLoad = s.smoothedLoad := rfl
@[simp] theorem State.endRun_renderedLoad (status : Int) (s : State) : (s.endRun status).renderedLoad = s.renderedLoad := rfl
@[simp] theorem State.endRun_tickBeat (status : Int) (s : State) : (s.endRun status).tickBeat = s.tickBeat := rfl
@[simp] theorem State.endRun_tickThrob (status : Int) (s : State) : (s.endRun status).tickThrob = s.tickThrob := rfl
@[simp] theorem State.endRun_tickPulse (status : Int) (s : State) : (s.endRun status).tickPulse = s.tickPulse := rfl
@[simp] theorem State.endRun_ccIndex (status : Int) (s : State) : (s.endRun status).ccIndex = s.ccIndex := rfl
@[simp] theorem State.endRun_ccStep (status : Int) (s : State) : (s.endRun status).ccStep = s.ccStep := rfl
@[simp] theorem State.endRun_stPhase (status : Int) (s : State) : (s.endRun status).stPhase = s.stPhase := rfl
@[simp] theorem State.endRun_stop (status : Int) (s : State) : (s.endRun status).stop = s.stop := rfl
@[simp] theorem State.endRun_fault (status : Int) (s : State) : (s.endRun status).fault = s.fault := rfl
@[simp] theorem State.endRun_inited (status : Int) (s : State) : (s.endRun status).inited = s.inited := rfl
@[simp] theorem State.endRun_smpHave (status : Int) (s : State) : (s.endRun status).smpHave = s.smpHave := rfl
@[simp] theorem State.endRun_smpLast (status : Int) (s : State) : (s.endRun status).smpLast = s.smpLast := rfl
@[simp] theorem State.endRun_phy (status : Int) (s : State) : (s.endRun status).phy = s.phy := rfl
@[simp] theorem State.endRun_outStream (status : Int) (s : State) : (s.endRun status).outStream = s.outStream := rfl
@[simp] theorem State.endRun_phase (status : Int) (s : State) : (s.endRun status).phase = s.phase := rfl
@[simp] theorem State.endRun_samplerOn (status : Int) (s : State) : (s.endRun status).samplerOn = false := rfl
@[simp] theorem State.endRun_exitStatus (status : Int) (s : State) : (s.endRun status).exitStatus = some status := rfl
@[simp] theorem State.endRun_events (status : Int) (s : State) : (s.endRun status).events = s.events ++ [.exit status] := rfl
@[simp] theorem State.endRun_ret (status : Int) (s : State) : (s.endRun status).ret = s.ret := rfl
@[simp] theorem State.endRun_issue (status : Int) (s : State) : (s.endRun status).issue = s.issue := rfl
@[simp] theorem State.endRun_draws (status : Int) (s : State) : (s.endRun status).draws = s.draws := rfl
@[simp] theorem State.endRun_inCalls (status : Int) (s : State) : (s.endRun status).inCalls = s.inCalls := rfl
@[simp] theorem State.endRun_inSinks (status : Int) (s : State) : (s.endRun status).inSinks = s.inSinks := rfl
@[simp] theorem State.endRun_inMetrics (status : Int) (s : State) : (s.endRun status).inMetrics = s.inMetrics := rfl
@[simp] theorem State.endRun_inRecords (status : Int) (s : State) : (s.endRun status).inRecords = s.inRecords := rfl
@[simp] theorem State.endRun_inAgents (status : Int) (s : State) : (s.endRun status).inAgents = s.inAgents := rfl

/-! `State.latchConfig` -/

@[simp] theorem State.latchConfig_ls (c : ConfigRecord) (s : State) : (s.latchConfig c).ls = s.ls := rfl
@[simp] theorem State.latchConfig_frR (c : ConfigRecord) (s : State) : (s.latchConfig c).frR = s.frR := rfl
@[simp] theorem State.latchConfig_frG (c : ConfigRecord) (s : State) : (s.latchConfig c).frG = s.frG := rfl
@[simp] theorem State.latchConfig_frB (c : ConfigRecord) (s : State) : (s.latchConfig c).frB = s.frB := rfl
@[simp] theorem State.latchConfig_out (c : ConfigRecord) (s : State) : (s.latchConfig c).out = s.out := rfl
@[simp] theorem State.latchConfig_pos (c : ConfigRecord) (s : State) : (s.latchConfig c).pos = s.pos := rfl
@[simp] theorem State.latchConfig_mode (c : ConfigRecord) (s : State) : (s.latchConfig c).mode = suppliedOr defaultMode c.mode := rfl
@[simp] theorem State.latchConfig_speed (c : ConfigRecord) (s : State) : (s.latchConfig c).speed = coerceSpeed (suppliedOr defaultSpeed c.speed) := rfl
@[simp] theorem State.latchConfig_color (c : ConfigRecord) (s : State) : (s.latchConfig c).color = BitVec.ofNat 24 (suppliedOr defaultColor.toNat c.color) := rfl
@[simp] theorem State.latchConfig_beat (c : ConfigRecord) (s : State) : (s.latchConfig c).beat = suppliedOr false c.beat := rfl
@[simp] theorem State.latchConfig_throb (c : ConfigRecord) (s : State) : (s.latchConfig c).throb = suppliedOr false c.throb := rfl
@[simp] theorem State.latchConfig_simulate (c : ConfigRecord) (s : State) : (s.latchConfig c).simulate = suppliedOr false c.simulate := rfl
@[simp] theorem State.latchConfig_debug (c : ConfigRecord) (s : State) : (s.latchConfig c).debug = suppliedOr false c.debug := rfl
@[simp] theorem State.latchConfig_smoothedLoad (c : ConfigRecord) (s : State) : (s.latchConfig c).smoothedLoad = s.smoothedLoad := rfl
@[simp] theorem State.latchConfig_renderedLoad (c : ConfigRecord) (s : State) : (s.latchConfig c).renderedLoad = s.renderedLoad := rfl
@[simp] theorem State.latchConfig_tickBeat (c : ConfigRecord) (s : State) : (s.latchConfig c).tickBeat = s.tickBeat := rfl
@[simp] theorem State.latchConfig_tickThrob (c : ConfigRecord) (s : State) : (s.latchConfig c).tickThrob = s.tickThrob := rfl
@[simp] theorem State.latchConfig_tickPulse (c : ConfigRecord) (s : State) : (s.latchConfig c).tickPulse = s.tickPulse := rfl
@[simp] theorem State.latchConfig_ccIndex (c : ConfigRecord) (s : State) : (s.latchConfig c).ccIndex = s.ccIndex := rfl
@[simp] theorem State.latchConfig_ccStep (c : ConfigRecord) (s : State) : (s.latchConfig c).ccStep = s.ccStep := rfl
@[simp] theorem State.latchConfig_stPhase (c : ConfigRecord) (s : State) : (s.latchConfig c).stPhase = s.stPhase := rfl
@[simp] theorem State.latchConfig_stop (c : ConfigRecord) (s : State) : (s.latchConfig c).stop = s.stop := rfl
@[simp] theorem State.latchConfig_fault (c : ConfigRecord) (s : State) : (s.latchConfig c).fault = s.fault := rfl
@[simp] theorem State.latchConfig_inited (c : ConfigRecord) (s : State) : (s.latchConfig c).inited = s.inited := rfl
@[simp] theorem State.latchConfig_smpHave (c : ConfigRecord) (s : State) : (s.latchConfig c).smpHave = s.smpHave := rfl
@[simp] theorem State.latchConfig_smpLast (c : ConfigRecord) (s : State) : (s.latchConfig c).smpLast = s.smpLast := rfl
@[simp] theorem State.latchConfig_phy (c : ConfigRecord) (s : State) : (s.latchConfig c).phy = s.phy := rfl
@[simp] theorem State.latchConfig_outStream (c : ConfigRecord) (s : State) : (s.latchConfig c).outStream = s.outStream := rfl
@[simp] theorem State.latchConfig_phase (c : ConfigRecord) (s : State) : (s.latchConfig c).phase = phaseAfterConfig (suppliedOr false c.simulate) := rfl
@[simp] theorem State.latchConfig_samplerOn (c : ConfigRecord) (s : State) : (s.latchConfig c).samplerOn = s.samplerOn := rfl
@[simp] theorem State.latchConfig_exitStatus (c : ConfigRecord) (s : State) : (s.latchConfig c).exitStatus = s.exitStatus := rfl
@[simp] theorem State.latchConfig_events (c : ConfigRecord) (s : State) : (s.latchConfig c).events = s.events := rfl
@[simp] theorem State.latchConfig_ret (c : ConfigRecord) (s : State) : (s.latchConfig c).ret = s.ret := rfl
@[simp] theorem State.latchConfig_issue (c : ConfigRecord) (s : State) : (s.latchConfig c).issue = s.issue := rfl
@[simp] theorem State.latchConfig_draws (c : ConfigRecord) (s : State) : (s.latchConfig c).draws = s.draws := rfl
@[simp] theorem State.latchConfig_inCalls (c : ConfigRecord) (s : State) : (s.latchConfig c).inCalls = s.inCalls := rfl
@[simp] theorem State.latchConfig_inSinks (c : ConfigRecord) (s : State) : (s.latchConfig c).inSinks = s.inSinks := rfl
@[simp] theorem State.latchConfig_inMetrics (c : ConfigRecord) (s : State) : (s.latchConfig c).inMetrics = s.inMetrics := rfl
@[simp] theorem State.latchConfig_inRecords (c : ConfigRecord) (s : State) : (s.latchConfig c).inRecords = s.inRecords := rfl
@[simp] theorem State.latchConfig_inAgents (c : ConfigRecord) (s : State) : (s.latchConfig c).inAgents = s.inAgents := rfl

/-! `State.simWrite` -/

@[simp] theorem State.simWrite_ls (bytes : List Byte) (t : Rgb) (s : State) : (s.simWrite bytes t).ls = s.ls := rfl
@[simp] theorem State.simWrite_frR (bytes : List Byte) (t : Rgb) (s : State) : (s.simWrite bytes t).frR = s.frR := rfl
@[simp] theorem State.simWrite_frG (bytes : List Byte) (t : Rgb) (s : State) : (s.simWrite bytes t).frG = s.frG := rfl
@[simp] theorem State.simWrite_frB (bytes : List Byte) (t : Rgb) (s : State) : (s.simWrite bytes t).frB = s.frB := rfl
@[simp] theorem State.simWrite_out (bytes : List Byte) (t : Rgb) (s : State) : (s.simWrite bytes t).out = s.out := rfl
@[simp] theorem State.simWrite_pos (bytes : List Byte) (t : Rgb) (s : State) : (s.simWrite bytes t).pos = s.pos := rfl
@[simp] theorem State.simWrite_mode (bytes : List Byte) (t : Rgb) (s : State) : (s.simWrite bytes t).mode = s.mode := rfl
@[simp] theorem State.simWrite_speed (bytes : List Byte) (t : Rgb) (s : State) : (s.simWrite bytes t).speed = s.speed := rfl
@[simp] theorem State.simWrite_color (bytes : List Byte) (t : Rgb) (s : State) : (s.simWrite bytes t).color = s.color := rfl
@[simp] theorem State.simWrite_beat (bytes : List Byte) (t : Rgb) (s : State) : (s.simWrite bytes t).beat = s.beat := rfl
@[simp] theorem State.simWrite_throb (bytes : List Byte) (t : Rgb) (s : State) : (s.simWrite bytes t).throb = s.throb := rfl
@[simp] theorem State.simWrite_simulate (bytes : List Byte) (t : Rgb) (s : State) : (s.simWrite bytes t).simulate = s.simulate := rfl
@[simp] theorem State.simWrite_debug (bytes : List Byte) (t : Rgb) (s : State) : (s.simWrite bytes t).debug = s.debug := rfl
@[simp] theorem State.simWrite_smoothedLoad (bytes : List Byte) (t : Rgb) (s : State) : (s.simWrite bytes t).smoothedLoad = s.smoothedLoad := rfl
@[simp] theorem State.simWrite_renderedLoad (bytes : List Byte) (t : Rgb) (s : State) : (s.simWrite bytes t).renderedLoad = s.renderedLoad := rfl
@[simp] theorem State.simWrite_tickBeat (bytes : List Byte) (t : Rgb) (s : State) : (s.simWrite bytes t).tickBeat = s.tickBeat := rfl
@[simp] theorem State.simWrite_tickThrob (bytes : List Byte) (t : Rgb) (s : State) : (s.simWrite bytes t).tickThrob = s.tickThrob := rfl
@[simp] theorem State.simWrite_tickPulse (bytes : List Byte) (t : Rgb) (s : State) : (s.simWrite bytes t).tickPulse = s.tickPulse := rfl
@[simp] theorem State.simWrite_ccIndex (bytes : List Byte) (t : Rgb) (s : State) : (s.simWrite bytes t).ccIndex = s.ccIndex := rfl
@[simp] theorem State.simWrite_ccStep (bytes : List Byte) (t : Rgb) (s : State) : (s.simWrite bytes t).ccStep = s.ccStep := rfl
@[simp] theorem State.simWrite_stPhase (bytes : List Byte) (t : Rgb) (s : State) : (s.simWrite bytes t).stPhase = s.stPhase := rfl
@[simp] theorem State.simWrite_stop (bytes : List Byte) (t : Rgb) (s : State) : (s.simWrite bytes t).stop = s.stop := rfl
@[simp] theorem State.simWrite_fault (bytes : List Byte) (t : Rgb) (s : State) : (s.simWrite bytes t).fault = s.fault := rfl
@[simp] theorem State.simWrite_inited (bytes : List Byte) (t : Rgb) (s : State) : (s.simWrite bytes t).inited = s.inited := rfl
@[simp] theorem State.simWrite_smpHave (bytes : List Byte) (t : Rgb) (s : State) : (s.simWrite bytes t).smpHave = s.smpHave := rfl
@[simp] theorem State.simWrite_smpLast (bytes : List Byte) (t : Rgb) (s : State) : (s.simWrite bytes t).smpLast = s.smpLast := rfl
@[simp] theorem State.simWrite_phy (bytes : List Byte) (t : Rgb) (s : State) : (s.simWrite bytes t).phy = s.phy := rfl
@[simp] theorem State.simWrite_outStream (bytes : List Byte) (t : Rgb) (s : State) : (s.simWrite bytes t).outStream = s.outStream ++ bytes := rfl
@[simp] theorem State.simWrite_phase (bytes : List Byte) (t : Rgb) (s : State) : (s.simWrite bytes t).phase = s.phase := rfl
@[simp] theorem State.simWrite_samplerOn (bytes : List Byte) (t : Rgb) (s : State) : (s.simWrite bytes t).samplerOn = s.samplerOn := rfl
@[simp] theorem State.simWrite_exitStatus (bytes : List Byte) (t : Rgb) (s : State) : (s.simWrite bytes t).exitStatus = s.exitStatus := rfl
@[simp] theorem State.simWrite_events (bytes : List Byte) (t : Rgb) (s : State) : (s.simWrite bytes t).events = s.events ++ [.simWrite bytes t (Config.simFormat t)] := rfl
@[simp] theorem State.simWrite_ret (bytes : List Byte) (t : Rgb) (s : State) : (s.simWrite bytes t).ret = s.ret := rfl
@[simp] theorem State.simWrite_issue (bytes : List Byte) (t : Rgb) (s : State) : (s.simWrite bytes t).issue = s.issue := rfl
@[simp] theorem State.simWrite_draws (bytes : List Byte) (t : Rgb) (s : State) : (s.simWrite bytes t).draws = s.draws := rfl
@[simp] theorem State.simWrite_inCalls (bytes : List Byte) (t : Rgb) (s : State) : (s.simWrite bytes t).inCalls = s.inCalls := rfl
@[simp] theorem State.simWrite_inSinks (bytes : List Byte) (t : Rgb) (s : State) : (s.simWrite bytes t).inSinks = s.inSinks := rfl
@[simp] theorem State.simWrite_inMetrics (bytes : List Byte) (t : Rgb) (s : State) : (s.simWrite bytes t).inMetrics = s.inMetrics := rfl
@[simp] theorem State.simWrite_inRecords (bytes : List Byte) (t : Rgb) (s : State) : (s.simWrite bytes t).inRecords = s.inRecords := rfl
@[simp] theorem State.simWrite_inAgents (bytes : List Byte) (t : Rgb) (s : State) : (s.simWrite bytes t).inAgents = s.inAgents := rfl

/-! `State.afterDeviceAnswer` -/

@[simp] theorem State.afterDeviceAnswer_ls (s : State) : (s.afterDeviceAnswer).ls = s.ls := rfl
@[simp] theorem State.afterDeviceAnswer_frR (s : State) : (s.afterDeviceAnswer).frR = s.frR := rfl
@[simp] theorem State.afterDeviceAnswer_frG (s : State) : (s.afterDeviceAnswer).frG = s.frG := rfl
@[simp] theorem State.afterDeviceAnswer_frB (s : State) : (s.afterDeviceAnswer).frB = s.frB := rfl
@[simp] theorem State.afterDeviceAnswer_out (s : State) : (s.afterDeviceAnswer).out = s.out := rfl
@[simp] theorem State.afterDeviceAnswer_pos (s : State) : (s.afterDeviceAnswer).pos = s.pos := rfl
@[simp] theorem State.afterDeviceAnswer_mode (s : State) : (s.afterDeviceAnswer).mode = s.mode := rfl
@[simp] theorem State.afterDeviceAnswer_speed (s : State) : (s.afterDeviceAnswer).speed = s.speed := rfl
@[simp] theorem State.afterDeviceAnswer_color (s : State) : (s.afterDeviceAnswer).color = s.color := rfl
@[simp] theorem State.afterDeviceAnswer_beat (s : State) : (s.afterDeviceAnswer).beat = s.beat := rfl
@[simp] theorem State.afterDeviceAnswer_throb (s : State) : (s.afterDeviceAnswer).throb = s.throb := rfl
@[simp] theorem State.afterDeviceAnswer_simulate (s : State) : (s.afterDeviceAnswer).simulate = s.simulate := rfl
@[simp] theorem State.afterDeviceAnswer_debug (s : State) : (s.afterDeviceAnswer).debug = s.debug := rfl
@[simp] theorem State.afterDeviceAnswer_smoothedLoad (s : State) : (s.afterDeviceAnswer).smoothedLoad = s.smoothedLoad := rfl
@[simp] theorem State.afterDeviceAnswer_renderedLoad (s : State) : (s.afterDeviceAnswer).renderedLoad = s.renderedLoad := rfl
@[simp] theorem State.afterDeviceAnswer_tickBeat (s : State) : (s.afterDeviceAnswer).tickBeat = s.tickBeat := rfl
@[simp] theorem State.afterDeviceAnswer_tickThrob (s : State) : (s.afterDeviceAnswer).tickThrob = s.tickThrob := rfl
@[simp] theorem State.afterDeviceAnswer_tickPulse (s : State) : (s.afterDeviceAnswer).tickPulse = s.tickPulse := rfl
@[simp] theorem State.afterDeviceAnswer_ccIndex (s : State) : (s.afterDeviceAnswer).ccIndex = s.ccIndex := rfl
@[simp] theorem State.afterDeviceAnswer_ccStep (s : State) : (s.afterDeviceAnswer).ccStep = s.ccStep := rfl
@[simp] theorem State.afterDeviceAnswer_stPhase (s : State) : (s.afterDeviceAnswer).stPhase = s.stPhase := rfl
@[simp] theorem State.afterDeviceAnswer_stop (s : State) : (s.afterDeviceAnswer).stop = s.stop := rfl
@[simp] theorem State.afterDeviceAnswer_fault (s : State) : (s.afterDeviceAnswer).fault = s.fault := rfl
@[simp] theorem State.afterDeviceAnswer_inited (s : State) : (s.afterDeviceAnswer).inited = s.inited := rfl
@[simp] theorem State.afterDeviceAnswer_smpHave (s : State) : (s.afterDeviceAnswer).smpHave = s.smpHave := rfl
@[simp] theorem State.afterDeviceAnswer_smpLast (s : State) : (s.afterDeviceAnswer).smpLast = s.smpLast := rfl
@[simp] theorem State.afterDeviceAnswer_phy (s : State) : (s.afterDeviceAnswer).phy = s.phy := rfl
@[simp] theorem State.afterDeviceAnswer_outStream (s : State) : (s.afterDeviceAnswer).outStream = s.outStream := rfl
@[simp] theorem State.afterDeviceAnswer_phase (s : State) : (s.afterDeviceAnswer).phase = s.phase := rfl
@[simp] theorem State.afterDeviceAnswer_samplerOn (s : State) : (s.afterDeviceAnswer).samplerOn = s.samplerOn := rfl
@[simp] theorem State.afterDeviceAnswer_exitStatus (s : State) : (s.afterDeviceAnswer).exitStatus = s.exitStatus := rfl
@[simp] theorem State.afterDeviceAnswer_events (s : State) : (s.afterDeviceAnswer).events = s.events := rfl
@[simp] theorem State.afterDeviceAnswer_ret (s : State) : (s.afterDeviceAnswer).ret = s.ret := rfl
@[simp] theorem State.afterDeviceAnswer_issue (s : State) : (s.afterDeviceAnswer).issue = s.issue := rfl
@[simp] theorem State.afterDeviceAnswer_draws (s : State) : (s.afterDeviceAnswer).draws = if s.inCalls.isEmpty then s.draws + 1 else s.draws := rfl
@[simp] theorem State.afterDeviceAnswer_inCalls (s : State) : (s.afterDeviceAnswer).inCalls = s.inCalls.tail := rfl
@[simp] theorem State.afterDeviceAnswer_inSinks (s : State) : (s.afterDeviceAnswer).inSinks = s.inSinks := rfl
@[simp] theorem State.afterDeviceAnswer_inMetrics (s : State) : (s.afterDeviceAnswer).inMetrics = s.inMetrics := rfl
@[simp] theorem State.afterDeviceAnswer_inRecords (s : State) : (s.afterDeviceAnswer).inRecords = s.inRecords := rfl
@[simp] theorem State.afterDeviceAnswer_inAgents (s : State) : (s.afterDeviceAnswer).inAgents = s.inAgents := rfl

/-! `State.afterSinkAnswer` -/

@[simp] theorem State.afterSinkAnswer_ls (s : State) : (s.afterSinkAnswer).ls = s.ls := rfl
@[simp] theorem State.afterSinkAnswer_frR (s : State) : (s.afterSinkAnswer).frR = s.frR := rfl
@[simp] theorem State.afterSinkAnswer_frG (s : State) : (s.afterSinkAnswer).frG = s.frG := rfl
@[simp] theorem State.afterSinkAnswer_frB (s : State) : (s.afterSinkAnswer).frB = s.frB := rfl
@[simp] theorem State.afterSinkAnswer_out (s : State) : (s.afterSinkAnswer).out = s.out := rfl
@[simp] theorem State.afterSinkAnswer_pos (s : State) : (s.afterSinkAnswer).pos = s.pos := rfl
@[simp] theorem State.afterSinkAnswer_mode (s : State) : (s.afterSinkAnswer).mode = s.mode := rfl
@[simp] theorem State.afterSinkAnswer_speed (s : State) : (s.afterSinkAnswer).speed = s.speed := rfl
@[simp] theorem State.afterSinkAnswer_color (s : State) : (s.afterSinkAnswer).color = s.color := rfl
@[simp] theorem State.afterSinkAnswer_beat (s : State) : (s.afterSinkAnswer).beat = s.beat := rfl
@[simp] theorem State.afterSinkAnswer_throb (s : State) : (s.afterSinkAnswer).throb = s.throb := rfl
@[simp] theorem State.afterSinkAnswer_simulate (s : State) : (s.afterSinkAnswer).simulate = s.simulate := rfl
@[simp] theorem State.afterSinkAnswer_debug (s : State) : (s.afterSinkAnswer).debug = s.debug := rfl
@[simp] theorem State.afterSinkAnswer_smoothedLoad (s : State) : (s.afterSinkAnswer).smoothedLoad = s.smoothedLoad := rfl
@[simp] theorem State.afterSinkAnswer_renderedLoad (s : State) : (s.afterSinkAnswer).renderedLoad = s.renderedLoad := rfl
@[simp] theorem State.afterSinkAnswer_tickBeat (s : State) : (s.afterSinkAnswer).tickBeat = s.tickBeat := rfl
@[simp] theorem State.afterSinkAnswer_tickThrob (s : State) : (s.afterSinkAnswer).tickThrob = s.tickThrob := rfl
@[simp] theorem State.afterSinkAnswer_tickPulse (s : State) : (s.afterSinkAnswer).tickPulse = s.tickPulse := rfl
@[simp] theorem State.afterSinkAnswer_ccIndex (s : State) : (s.afterSinkAnswer).ccIndex = s.ccIndex := rfl
@[simp] theorem State.afterSinkAnswer_ccStep (s : State) : (s.afterSinkAnswer).ccStep = s.ccStep := rfl
@[simp] theorem State.afterSinkAnswer_stPhase (s : State) : (s.afterSinkAnswer).stPhase = s.stPhase := rfl
@[simp] theorem State.afterSinkAnswer_stop (s : State) : (s.afterSinkAnswer).stop = s.stop := rfl
@[simp] theorem State.afterSinkAnswer_fault (s : State) : (s.afterSinkAnswer).fault = s.fault := rfl
@[simp] theorem State.afterSinkAnswer_inited (s : State) : (s.afterSinkAnswer).inited = s.inited := rfl
@[simp] theorem State.afterSinkAnswer_smpHave (s : State) : (s.afterSinkAnswer).smpHave = s.smpHave := rfl
@[simp] theorem State.afterSinkAnswer_smpLast (s : State) : (s.afterSinkAnswer).smpLast = s.smpLast := rfl
@[simp] theorem State.afterSinkAnswer_phy (s : State) : (s.afterSinkAnswer).phy = s.phy := rfl
@[simp] theorem State.afterSinkAnswer_outStream (s : State) : (s.afterSinkAnswer).outStream = s.outStream := rfl
@[simp] theorem State.afterSinkAnswer_phase (s : State) : (s.afterSinkAnswer).phase = s.phase := rfl
@[simp] theorem State.afterSinkAnswer_samplerOn (s : State) : (s.afterSinkAnswer).samplerOn = s.samplerOn := rfl
@[simp] theorem State.afterSinkAnswer_exitStatus (s : State) : (s.afterSinkAnswer).exitStatus = s.exitStatus := rfl
@[simp] theorem State.afterSinkAnswer_events (s : State) : (s.afterSinkAnswer).events = s.events := rfl
@[simp] theorem State.afterSinkAnswer_ret (s : State) : (s.afterSinkAnswer).ret = s.ret := rfl
@[simp] theorem State.afterSinkAnswer_issue (s : State) : (s.afterSinkAnswer).issue = s.issue := rfl
@[simp] theorem State.afterSinkAnswer_draws (s : State) : (s.afterSinkAnswer).draws = if s.inSinks.isEmpty then s.draws + 1 else s.draws := rfl
@[simp] theorem State.afterSinkAnswer_inCalls (s : State) : (s.afterSinkAnswer).inCalls = s.inCalls := rfl
@[simp] theorem State.afterSinkAnswer_inSinks (s : State) : (s.afterSinkAnswer).inSinks = s.inSinks.tail := rfl
@[simp] theorem State.afterSinkAnswer_inMetrics (s : State) : (s.afterSinkAnswer).inMetrics = s.inMetrics := rfl
@[simp] theorem State.afterSinkAnswer_inRecords (s : State) : (s.afterSinkAnswer).inRecords = s.inRecords := rfl
@[simp] theorem State.afterSinkAnswer_inAgents (s : State) : (s.afterSinkAnswer).inAgents = s.inAgents := rfl

/-! `State.afterMetricAnswer` -/

@[simp] theorem State.afterMetricAnswer_ls (s : State) : (s.afterMetricAnswer).ls = s.ls := rfl
@[simp] theorem State.afterMetricAnswer_frR (s : State) : (s.afterMetricAnswer).frR = s.frR := rfl
@[simp] theorem State.afterMetricAnswer_frG (s : State) : (s.afterMetricAnswer).frG = s.frG := rfl
@[simp] theorem State.afterMetricAnswer_frB (s : State) : (s.afterMetricAnswer).frB = s.frB := rfl
@[simp] theorem State.afterMetricAnswer_out (s : State) : (s.afterMetricAnswer).out = s.out := rfl
@[simp] theorem State.afterMetricAnswer_pos (s : State) : (s.afterMetricAnswer).pos = s.pos := rfl
@[simp] theorem State.afterMetricAnswer_mode (s : State) : (s.afterMetricAnswer).mode = s.mode := rfl
@[simp] theorem State.afterMetricAnswer_speed (s : State) : (s.afterMetricAnswer).speed = s.speed := rfl
@[simp] theorem State.afterMetricAnswer_color (s : State) : (s.afterMetricAnswer).color = s.color := rfl
@[simp] theorem State.afterMetricAnswer_beat (s : State) : (s.afterMetricAnswer).beat = s.beat := rfl
@[simp] theorem State.afterMetricAnswer_throb (s : State) : (s.afterMetricAnswer).throb = s.throb := rfl
@[simp] theorem State.afterMetricAnswer_simulate (s : State) : (s.afterMetricAnswer).simulate = s.simulate := rfl
@[simp] theorem State.afterMetricAnswer_debug (s : State) : (s.afterMetricAnswer).debug = s.debug := rfl
@[simp] theorem State.afterMetricAnswer_smoothedLoad (s : State) : (s.afterMetricAnswer).smoothedLoad = s.smoothedLoad := rfl
@[simp] theorem State.afterMetricAnswer_renderedLoad (s : State) : (s.afterMetricAnswer).renderedLoad = s.renderedLoad := rfl
@[simp] theorem State.afterMetricAnswer_tickBeat (s : State) : (s.afterMetricAnswer).tickBeat = s.tickBeat := rfl
@[simp] theorem State.afterMetricAnswer_tickThrob (s : State) : (s.afterMetricAnswer).tickThrob = s.tickThrob := rfl
@[simp] theorem State.afterMetricAnswer_tickPulse (s : State) : (s.afterMetricAnswer).tickPulse = s.tickPulse := rfl
@[simp] theorem State.afterMetricAnswer_ccIndex (s : State) : (s.afterMetricAnswer).ccIndex = s.ccIndex := rfl
@[simp] theorem State.afterMetricAnswer_ccStep (s : State) : (s.afterMetricAnswer).ccStep = s.ccStep := rfl
@[simp] theorem State.afterMetricAnswer_stPhase (s : State) : (s.afterMetricAnswer).stPhase = s.stPhase := rfl
@[simp] theorem State.afterMetricAnswer_stop (s : State) : (s.afterMetricAnswer).stop = s.stop := rfl
@[simp] theorem State.afterMetricAnswer_fault (s : State) : (s.afterMetricAnswer).fault = s.fault := rfl
@[simp] theorem State.afterMetricAnswer_inited (s : State) : (s.afterMetricAnswer).inited = s.inited := rfl
@[simp] theorem State.afterMetricAnswer_smpHave (s : State) : (s.afterMetricAnswer).smpHave = s.smpHave := rfl
@[simp] theorem State.afterMetricAnswer_smpLast (s : State) : (s.afterMetricAnswer).smpLast = s.smpLast := rfl
@[simp] theorem State.afterMetricAnswer_phy (s : State) : (s.afterMetricAnswer).phy = s.phy := rfl
@[simp] theorem State.afterMetricAnswer_outStream (s : State) : (s.afterMetricAnswer).outStream = s.outStream := rfl
@[simp] theorem State.afterMetricAnswer_phase (s : State) : (s.afterMetricAnswer).phase = s.phase := rfl
@[simp] theorem State.afterMetricAnswer_samplerOn (s : State) : (s.afterMetricAnswer).samplerOn = s.samplerOn := rfl
@[simp] theorem State.afterMetricAnswer_exitStatus (s : State) : (s.afterMetricAnswer).exitStatus = s.exitStatus := rfl
@[simp] theorem State.afterMetricAnswer_events (s : State) : (s.afterMetricAnswer).events = s.events := rfl
@[simp] theorem State.afterMetricAnswer_ret (s : State) : (s.afterMetricAnswer).ret = s.ret := rfl
@[simp] theorem State.afterMetricAnswer_issue (s : State) : (s.afterMetricAnswer).issue = s.issue := rfl
@[simp] theorem State.afterMetricAnswer_draws (s : State) : (s.afterMetricAnswer).draws = if s.inMetrics.isEmpty then s.draws + 1 else s.draws := rfl
@[simp] theorem State.afterMetricAnswer_inCalls (s : State) : (s.afterMetricAnswer).inCalls = s.inCalls := rfl
@[simp] theorem State.afterMetricAnswer_inSinks (s : State) : (s.afterMetricAnswer).inSinks = s.inSinks := rfl
@[simp] theorem State.afterMetricAnswer_inMetrics (s : State) : (s.afterMetricAnswer).inMetrics = s.inMetrics.tail := rfl
@[simp] theorem State.afterMetricAnswer_inRecords (s : State) : (s.afterMetricAnswer).inRecords = s.inRecords := rfl
@[simp] theorem State.afterMetricAnswer_inAgents (s : State) : (s.afterMetricAnswer).inAgents = s.inAgents := rfl

/-! `State.afterHostRecord` -/

@[simp] theorem State.afterHostRecord_ls (s : State) : (s.afterHostRecord).ls = s.ls := rfl
@[simp] theorem State.afterHostRecord_frR (s : State) : (s.afterHostRecord).frR = s.frR := rfl
@[simp] theorem State.afterHostRecord_frG (s : State) : (s.afterHostRecord).frG = s.frG := rfl
@[simp] theorem State.afterHostRecord_frB (s : State) : (s.afterHostRecord).frB = s.frB := rfl
@[simp] theorem State.afterHostRecord_out (s : State) : (s.afterHostRecord).out = s.out := rfl
@[simp] theorem State.afterHostRecord_pos (s : State) : (s.afterHostRecord).pos = s.pos := rfl
@[simp] theorem State.afterHostRecord_mode (s : State) : (s.afterHostRecord).mode = s.mode := rfl
@[simp] theorem State.afterHostRecord_speed (s : State) : (s.afterHostRecord).speed = s.speed := rfl
@[simp] theorem State.afterHostRecord_color (s : State) : (s.afterHostRecord).color = s.color := rfl
@[simp] theorem State.afterHostRecord_beat (s : State) : (s.afterHostRecord).beat = s.beat := rfl
@[simp] theorem State.afterHostRecord_throb (s : State) : (s.afterHostRecord).throb = s.throb := rfl
@[simp] theorem State.afterHostRecord_simulate (s : State) : (s.afterHostRecord).simulate = s.simulate := rfl
@[simp] theorem State.afterHostRecord_debug (s : State) : (s.afterHostRecord).debug = s.debug := rfl
@[simp] theorem State.afterHostRecord_smoothedLoad (s : State) : (s.afterHostRecord).smoothedLoad = s.smoothedLoad := rfl
@[simp] theorem State.afterHostRecord_renderedLoad (s : State) : (s.afterHostRecord).renderedLoad = s.renderedLoad := rfl
@[simp] theorem State.afterHostRecord_tickBeat (s : State) : (s.afterHostRecord).tickBeat = s.tickBeat := rfl
@[simp] theorem State.afterHostRecord_tickThrob (s : State) : (s.afterHostRecord).tickThrob = s.tickThrob := rfl
@[simp] theorem State.afterHostRecord_tickPulse (s : State) : (s.afterHostRecord).tickPulse = s.tickPulse := rfl
@[simp] theorem State.afterHostRecord_ccIndex (s : State) : (s.afterHostRecord).ccIndex = s.ccIndex := rfl
@[simp] theorem State.afterHostRecord_ccStep (s : State) : (s.afterHostRecord).ccStep = s.ccStep := rfl
@[simp] theorem State.afterHostRecord_stPhase (s : State) : (s.afterHostRecord).stPhase = s.stPhase := rfl
@[simp] theorem State.afterHostRecord_stop (s : State) : (s.afterHostRecord).stop = s.stop := rfl
@[simp] theorem State.afterHostRecord_fault (s : State) : (s.afterHostRecord).fault = s.fault := rfl
@[simp] theorem State.afterHostRecord_inited (s : State) : (s.afterHostRecord).inited = s.inited := rfl
@[simp] theorem State.afterHostRecord_smpHave (s : State) : (s.afterHostRecord).smpHave = s.smpHave := rfl
@[simp] theorem State.afterHostRecord_smpLast (s : State) : (s.afterHostRecord).smpLast = s.smpLast := rfl
@[simp] theorem State.afterHostRecord_phy (s : State) : (s.afterHostRecord).phy = s.phy := rfl
@[simp] theorem State.afterHostRecord_outStream (s : State) : (s.afterHostRecord).outStream = s.outStream := rfl
@[simp] theorem State.afterHostRecord_phase (s : State) : (s.afterHostRecord).phase = s.phase := rfl
@[simp] theorem State.afterHostRecord_samplerOn (s : State) : (s.afterHostRecord).samplerOn = s.samplerOn := rfl
@[simp] theorem State.afterHostRecord_exitStatus (s : State) : (s.afterHostRecord).exitStatus = s.exitStatus := rfl
@[simp] theorem State.afterHostRecord_events (s : State) : (s.afterHostRecord).events = s.events := rfl
@[simp] theorem State.afterHostRecord_ret (s : State) : (s.afterHostRecord).ret = s.ret := rfl
@[simp] theorem State.afterHostRecord_issue (s : State) : (s.afterHostRecord).issue = s.issue := rfl
@[simp] theorem State.afterHostRecord_draws (s : State) : (s.afterHostRecord).draws = if s.inRecords.isEmpty then s.draws + 1 else s.draws := rfl
@[simp] theorem State.afterHostRecord_inCalls (s : State) : (s.afterHostRecord).inCalls = s.inCalls := rfl
@[simp] theorem State.afterHostRecord_inSinks (s : State) : (s.afterHostRecord).inSinks = s.inSinks := rfl
@[simp] theorem State.afterHostRecord_inMetrics (s : State) : (s.afterHostRecord).inMetrics = s.inMetrics := rfl
@[simp] theorem State.afterHostRecord_inRecords (s : State) : (s.afterHostRecord).inRecords = s.inRecords.tail := rfl
@[simp] theorem State.afterHostRecord_inAgents (s : State) : (s.afterHostRecord).inAgents = s.inAgents := rfl

/-! `State.afterNextAgent` -/

@[simp] theorem State.afterNextAgent_ls (s : State) : (s.afterNextAgent).ls = s.ls := rfl
@[simp] theorem State.afterNextAgent_frR (s : State) : (s.afterNextAgent).frR = s.frR := rfl
@[simp] theorem State.afterNextAgent_frG (s : State) : (s.afterNextAgent).frG = s.frG := rfl
@[simp] theorem State.afterNextAgent_frB (s : State) : (s.afterNextAgent).frB = s.frB := rfl
@[simp] theorem State.afterNextAgent_out (s : State) : (s.afterNextAgent).out = s.out := rfl
@[simp] theorem State.afterNextAgent_pos (s : State) : (s.afterNextAgent).pos = s.pos := rfl
@[simp] theorem State.afterNextAgent_mode (s : State) : (s.afterNextAgent).mode = s.mode := rfl
@[simp] theorem State.afterNextAgent_speed (s : State) : (s.afterNextAgent).speed = s.speed := rfl
@[simp] theorem State.afterNextAgent_color (s : State) : (s.afterNextAgent).color = s.color := rfl
@[simp] theorem State.afterNextAgent_beat (s : State) : (s.afterNextAgent).beat = s.beat := rfl
@[simp] theorem State.afterNextAgent_throb (s : State) : (s.afterNextAgent).throb = s.throb := rfl
@[simp] theorem State.afterNextAgent_simulate (s : State) : (s.afterNextAgent).simulate = s.simulate := rfl
@[simp] theorem State.afterNextAgent_debug (s : State) : (s.afterNextAgent).debug = s.debug := rfl
@[simp] theorem State.afterNextAgent_smoothedLoad (s : State) : (s.afterNextAgent).smoothedLoad = s.smoothedLoad := rfl
@[simp] theorem State.afterNextAgent_renderedLoad (s : State) : (s.afterNextAgent).renderedLoad = s.renderedLoad := rfl
@[simp] theorem State.afterNextAgent_tickBeat (s : State) : (s.afterNextAgent).tickBeat = s.tickBeat := rfl
@[simp] theorem State.afterNextAgent_tickThrob (s : State) : (s.afterNextAgent).tickThrob = s.tickThrob := rfl
@[simp] theorem State.afterNextAgent_tickPulse (s : State) : (s.afterNextAgent).tickPulse = s.tickPulse := rfl
@[simp] theorem State.afterNextAgent_ccIndex (s : State) : (s.afterNextAgent).ccIndex = s.ccIndex := rfl
@[simp] theorem State.afterNextAgent_ccStep (s : State) : (s.afterNextAgent).ccStep = s.ccStep := rfl
@[simp] theorem State.afterNextAgent_stPhase (s : State) : (s.afterNextAgent).stPhase = s.stPhase := rfl
@[simp] theorem State.afterNextAgent_stop (s : State) : (s.afterNextAgent).stop = s.stop := rfl
@[simp] theorem State.afterNextAgent_fault (s : State) : (s.afterNextAgent).fault = s.fault := rfl
@[simp] theorem State.afterNextAgent_inited (s : State) : (s.afterNextAgent).inited = s.inited := rfl
@[simp] theorem State.afterNextAgent_smpHave (s : State) : (s.afterNextAgent).smpHave = s.smpHave := rfl
@[simp] theorem State.afterNextAgent_smpLast (s : State) : (s.afterNextAgent).smpLast = s.smpLast := rfl
@[simp] theorem State.afterNextAgent_phy (s : State) : (s.afterNextAgent).phy = s.phy := rfl
@[simp] theorem State.afterNextAgent_outStream (s : State) : (s.afterNextAgent).outStream = s.outStream := rfl
@[simp] theorem State.afterNextAgent_phase (s : State) : (s.afterNextAgent).phase = s.phase := rfl
@[simp] theorem State.afterNextAgent_samplerOn (s : State) : (s.afterNextAgent).samplerOn = s.samplerOn := rfl
@[simp] theorem State.afterNextAgent_exitStatus (s : State) : (s.afterNextAgent).exitStatus = s.exitStatus := rfl
@[simp] theorem State.afterNextAgent_events (s : State) : (s.afterNextAgent).events = s.events := rfl
@[simp] theorem State.afterNextAgent_ret (s : State) : (s.afterNextAgent).ret = s.ret := rfl
@[simp] theorem State.afterNextAgent_issue (s : State) : (s.afterNextAgent).issue = s.issue := rfl
@[simp] theorem State.afterNextAgent_draws (s : State) : (s.afterNextAgent).draws = if s.inAgents.isEmpty then s.draws + 1 else s.draws := rfl
@[simp] theorem State.afterNextAgent_inCalls (s : State) : (s.afterNextAgent).inCalls = s.inCalls := rfl
@[simp] theorem State.afterNextAgent_inSinks (s : State) : (s.afterNextAgent).inSinks = s.inSinks := rfl
@[simp] theorem State.afterNextAgent_inMetrics (s : State) : (s.afterNextAgent).inMetrics = s.inMetrics := rfl
@[simp] theorem State.afterNextAgent_inRecords (s : State) : (s.afterNextAgent).inRecords = s.inRecords := rfl
@[simp] theorem State.afterNextAgent_inAgents (s : State) : (s.afterNextAgent).inAgents = s.inAgents.tail := rfl

/-! `State.cycleTick` -/

@[simp] theorem State.cycleTick_ls (s : State) : (s.cycleTick).ls = s.ls := rfl
@[simp] theorem State.cycleTick_frR (s : State) : (s.cycleTick).frR = s.frR := rfl
@[simp] theorem State.cycleTick_frG (s : State) : (s.cycleTick).frG = s.frG := rfl
@[simp] theorem State.cycleTick_frB (s : State) : (s.cycleTick).frB = s.frB := rfl
@[simp] theorem State.cycleTick_out (s : State) : (s.cycleTick).out = s.out := rfl
@[simp] theorem State.cycleTick_pos (s : State) : (s.cycleTick).pos = s.pos := rfl
@[simp] theorem State.cycleTick_mode (s : State) : (s.cycleTick).mode = s.mode := rfl
@[simp] theorem State.cycleTick_speed (s : State) : (s.cycleTick).speed = s.speed := rfl
@[simp] theorem State.cycleTick_color (s : State) : (s.cycleTick).color = s.color := rfl
@[simp] theorem State.cycleTick_beat (s : State) : (s.cycleTick).beat = s.beat := rfl
@[simp] theorem State.cycleTick_throb (s : State) : (s.cycleTick).throb = s.throb := rfl
@[simp] theorem State.cycleTick_simulate (s : State) : (s.cycleTick).simulate = s.simulate := rfl
@[simp] theorem State.cycleTick_debug (s : State) : (s.cycleTick).debug = s.debug := rfl
@[simp] theorem State.cycleTick_smoothedLoad (s : State) : (s.cycleTick).smoothedLoad = s.smoothedLoad := rfl
@[simp] theorem State.cycleTick_renderedLoad (s : State) : (s.cycleTick).renderedLoad = s.renderedLoad := rfl
@[simp] theorem State.cycleTick_tickBeat (s : State) : (s.cycleTick).tickBeat = s.tickBeat := rfl
@[simp] theorem State.cycleTick_tickThrob (s : State) : (s.cycleTick).tickThrob = s.tickThrob := rfl
@[simp] theorem State.cycleTick_tickPulse (s : State) : (s.cycleTick).tickPulse = s.tickPulse := rfl
@[simp] theorem State.cycleTick_ccIndex (s : State) : (s.cycleTick).ccIndex = if s.ccStep + 1 = ccSteps then (s.ccIndex + 1) % paletteLen else s.ccIndex := rfl
@[simp] theorem State.cycleTick_ccStep (s : State) : (s.cycleTick).ccStep = if s.ccStep + 1 = ccSteps then 0 else s.ccStep + 1 := rfl
@[simp] theorem State.cycleTick_stPhase (s : State) : (s.cycleTick).stPhase = s.stPhase := rfl
@[simp] theorem State.cycleTick_stop (s : State) : (s.cycleTick).stop = s.stop := rfl
@[simp] theorem State.cycleTick_fault (s : State) : (s.cycleTick).fault = s.fault := rfl
@[simp] theorem State.cycleTick_inited (s : State) : (s.cycleTick).inited = s.inited := rfl
@[simp] theorem State.cycleTick_smpHave (s : State) : (s.cycleTick).smpHave = s.smpHave := rfl
@[simp] theorem State.cycleTick_smpLast (s : State) : (s.cycleTick).smpLast = s.smpLast := rfl
@[simp] theorem State.cycleTick_phy (s : State) : (s.cycleTick).phy = s.phy := rfl
@[simp] theorem State.cycleTick_outStream (s : State) : (s.cycleTick).outStream = s.outStream := rfl
@[simp] theorem State.cycleTick_phase (s : State) : (s.cycleTick).phase = s.phase := rfl
@[simp] theorem State.cycleTick_samplerOn (s : State) : (s.cycleTick).samplerOn = s.samplerOn := rfl
@[simp] theorem State.cycleTick_exitStatus (s : State) : (s.cycleTick).exitStatus = s.exitStatus := rfl
@[simp] theorem State.cycleTick_events (s : State) : (s.cycleTick).events = s.events := rfl
@[simp] theorem State.cycleTick_ret (s : State) : (s.cycleTick).ret = s.ret := rfl
@[simp] theorem State.cycleTick_issue (s : State) : (s.cycleTick).issue = s.issue := rfl
@[simp] theorem State.cycleTick_draws (s : State) : (s.cycleTick).draws = s.draws := rfl
@[simp] theorem State.cycleTick_inCalls (s : State) : (s.cycleTick).inCalls = s.inCalls := rfl
@[simp] theorem State.cycleTick_inSinks (s : State) : (s.cycleTick).inSinks = s.inSinks := rfl
@[simp] theorem State.cycleTick_inMetrics (s : State) : (s.cycleTick).inMetrics = s.inMetrics := rfl
@[simp] theorem State.cycleTick_inRecords (s : State) : (s.cycleTick).inRecords = s.inRecords := rfl
@[simp] theorem State.cycleTick_inAgents (s : State) : (s.cycleTick).inAgents = s.inAgents := rfl

/-! `State.debugTick` -/

@[simp] theorem State.debugTick_ls (s : State) : (s.debugTick).ls = s.ls := rfl
@[simp] theorem State.debugTick_frR (s : State) : (s.debugTick).frR = s.frR := rfl
@[simp] theorem State.debugTick_frG (s : State) : (s.debugTick).frG = s.frG := rfl
@[simp] theorem State.debugTick_frB (s : State) : (s.debugTick).frB = s.frB := rfl
@[simp] theorem State.debugTick_out (s : State) : (s.debugTick).out = s.out := rfl
@[simp] theorem State.debugTick_pos (s : State) : (s.debugTick).pos = s.pos := rfl
@[simp] theorem State.debugTick_mode (s : State) : (s.debugTick).mode = s.mode := rfl
@[simp] theorem State.debugTick_speed (s : State) : (s.debugTick).speed = s.speed := rfl
@[simp] theorem State.debugTick_color (s : State) : (s.debugTick).color = s.color := rfl
@[simp] theorem State.debugTick_beat (s : State) : (s.debugTick).beat = s.beat := rfl
@[simp] theorem State.debugTick_throb (s : State) : (s.debugTick).throb = s.throb := rfl
@[simp] theorem State.debugTick_simulate (s : State) : (s.debugTick).simulate = s.simulate := rfl
@[simp] theorem State.debugTick_debug (s : State) : (s.debugTick).debug = s.debug := rfl
@[simp] theorem State.debugTick_smoothedLoad (s : State) : (s.debugTick).smoothedLoad = s.smoothedLoad := rfl
@[simp] theorem State.debugTick_renderedLoad (s : State) : (s.debugTick).renderedLoad = s.renderedLoad := rfl
@[simp] theorem State.debugTick_tickBeat (s : State) : (s.debugTick).tickBeat = s.tickBeat := rfl
@[simp] theorem State.debugTick_tickThrob (s : State) : (s.debugTick).tickThrob = s.tickThrob := rfl
@[simp] theorem State.debugTick_tickPulse (s : State) : (s.debugTick).tickPulse = s.tickPulse := rfl
@[simp] theorem State.debugTick_ccIndex (s : State) : (s.debugTick).ccIndex = s.ccIndex := rfl
@[simp] theorem State.debugTick_ccStep (s : State) : (s.debugTick).ccStep = s.ccStep := rfl
@[simp] theorem State.debugTick_stPhase (s : State) : (s.debugTick).stPhase = s.stPhase := rfl
@[simp] theorem State.debugTick_stop (s : State) : (s.debugTick).stop = s.stop := rfl
@[simp] theorem State.debugTick_fault (s : State) : (s.debugTick).fault = s.fault := rfl
@[simp] theorem State.debugTick_inited (s : State) : (s.debugTick).inited = s.inited := rfl
@[simp] theorem State.debugTick_smpHave (s : State) : (s.debugTick).smpHave = s.smpHave := rfl
@[simp] theorem State.debugTick_smpLast (s : State) : (s.debugTick).smpLast = s.smpLast := rfl
@[simp] theorem State.debugTick_phy (s : State) : (s.debugTick).phy = s.phy := rfl
@[simp] theorem State.debugTick_outStream (s : State) : (s.debugTick).outStream = s.outStream := rfl
@[simp] theorem State.debugTick_phase (s : State) : (s.debugTick).phase = s.phase := rfl
@[simp] theorem State.debugTick_samplerOn (s : State) : (s.debugTick).samplerOn = s.samplerOn := rfl
@[simp] theorem State.debugTick_exitStatus (s : State) : (s.debugTick).exitStatus = s.exitStatus := rfl
@[simp] theorem State.debugTick_events (s : State) : (s.debugTick).events = if s.debug then s.events ++ [.debugText (Config.debugText s.events.length)] else s.events := rfl
@[simp] theorem State.debugTick_ret (s : State) : (s.debugTick).ret = s.ret := rfl
@[simp] theorem State.debugTick_issue (s : State) : (s.debugTick).issue = s.issue := rfl
@[simp] theorem State.debugTick_draws (s : State) : (s.debugTick).draws = s.draws := rfl
@[simp] theorem State.debugTick_inCalls (s : State) : (s.debugTick).inCalls = s.inCalls := rfl
@[simp] theorem State.debugTick_inSinks (s : State) : (s.debugTick).inSinks = s.inSinks := rfl
@[simp] theorem State.debugTick_inMetrics (s : State) : (s.debugTick).inMetrics = s.inMetrics := rfl
@[simp] theorem State.debugTick_inRecords (s : State) : (s.debugTick).inRecords = s.inRecords := rfl
@[simp] theorem State.debugTick_inAgents (s : State) : (s.debugTick).inAgents = s.inAgents := rfl

/-! `State.leaveLoop` -/

@[simp] theorem State.leaveLoop_ls (s : State) : (s.leaveLoop).ls = s.ls := rfl
@[simp] theorem State.leaveLoop_frR (s : State) : (s.leaveLoop).frR = s.frR := rfl
@[simp] theorem State.leaveLoop_frG (s : State) : (s.leaveLoop).frG = s.frG := rfl
@[simp] theorem State.leaveLoop_frB (s : State) : (s.leaveLoop).frB = s.frB := rfl
@[simp] theorem State.leaveLoop_out (s : State) : (s.leaveLoop).out = s.out := rfl
@[simp] theorem State.leaveLoop_pos (s : State) : (s.leaveLoop).pos = s.pos := rfl
@[simp] theorem State.leaveLoop_mode (s : State) : (s.leaveLoop).mode = s.mode := rfl
@[simp] theorem State.leaveLoop_speed (s : State) : (s.leaveLoop).speed = s.speed := rfl
@[simp] theorem State.leaveLoop_color (s : State) : (s.leaveLoop).color = s.color := rfl
@[simp] theorem State.leaveLoop_beat (s : State) : (s.leaveLoop).beat = s.beat := rfl
@[simp] theorem State.leaveLoop_throb (s : State) : (s.leaveLoop).throb = s.throb := rfl
@[simp] theorem State.leaveLoop_simulate (s : State) : (s.leaveLoop).simulate = s.simulate := rfl
@[simp] theorem State.leaveLoop_debug (s : State) : (s.leaveLoop).debug = s.debug := rfl
@[simp] theorem State.leaveLoop_smoothedLoad (s : State) : (s.leaveLoop).smoothedLoad = s.smoothedLoad := rfl
@[simp] theorem State.leaveLoop_renderedLoad (s : State) : (s.leaveLoop).renderedLoad = s.renderedLoad := rfl
@[simp] theorem State.leaveLoop_tickBeat (s : State) : (s.leaveLoop).tickBeat = s.tickBeat := rfl
@[simp] theorem State.leaveLoop_tickThrob (s : State) : (s.leaveLoop).tickThrob = s.tickThrob := rfl
@[simp] theorem State.leaveLoop_tickPulse (s : State) : (s.leaveLoop).tickPulse = s.tickPulse := rfl
@[simp] theorem State.leaveLoop_ccIndex (s : State) : (s.leaveLoop).ccIndex = s.ccIndex := rfl
@[simp] theorem State.leaveLoop_ccStep (s : State) : (s.leaveLoop).ccStep = s.ccStep := rfl
@[simp] theorem State.leaveLoop_stPhase (s : State) : (s.leaveLoop).stPhase = s.stPhase := rfl
@[simp] theorem State.leaveLoop_stop (s : State) : (s.leaveLoop).stop = s.stop := rfl
@[simp] theorem State.leaveLoop_fault (s : State) : (s.leaveLoop).fault = s.fault := rfl
@[simp] theorem State.leaveLoop_inited (s : State) : (s.leaveLoop).inited = s.inited := rfl
@[simp] theorem State.leaveLoop_smpHave (s : State) : (s.leaveLoop).smpHave = s.smpHave := rfl
@[simp] theorem State.leaveLoop_smpLast (s : State) : (s.leaveLoop).smpLast = s.smpLast := rfl
@[simp] theorem State.leaveLoop_phy (s : State) : (s.leaveLoop).phy = s.phy := rfl
@[simp] theorem State.leaveLoop_outStream (s : State) : (s.leaveLoop).outStream = s.outStream := rfl
@[simp] theorem State.leaveLoop_phase (s : State) : (s.leaveLoop).phase = if s.simulate ∨ s.phase = .awaitExit then .awaitExit else .awaitTeardown := rfl
@[simp] theorem State.leaveLoop_samplerOn (s : State) : (s.leaveLoop).samplerOn = s.samplerOn := rfl
@[simp] theorem State.leaveLoop_exitStatus (s : State) : (s.leaveLoop).exitStatus = s.exitStatus := rfl
@[simp] theorem State.leaveLoop_events (s : State) : (s.leaveLoop).events = s.events := rfl
@[simp] theorem State.leaveLoop_ret (s : State) : (s.leaveLoop).ret = s.ret := rfl
@[simp] theorem State.leaveLoop_issue (s : State) : (s.leaveLoop).issue = s.issue := rfl
@[simp] theorem State.leaveLoop_draws (s : State) : (s.leaveLoop).draws = s.draws := rfl
@[simp] theorem State.leaveLoop_inCalls (s : State) : (s.leaveLoop).inCalls = s.inCalls := rfl
@[simp] theorem State.leaveLoop_inSinks (s : State) : (s.leaveLoop).inSinks = s.inSinks := rfl
@[simp] theorem State.leaveLoop_inMetrics (s : State) : (s.leaveLoop).inMetrics = s.inMetrics := rfl
@[simp] theorem State.leaveLoop_inRecords (s : State) : (s.leaveLoop).inRecords = s.inRecords := rfl
@[simp] theorem State.leaveLoop_inAgents (s : State) : (s.leaveLoop).inAgents = s.inAgents := rfl

/-! `State.wiresAfterWrite` -/

@[simp] theorem State.wiresAfterWrite_ls (bytes : List Byte) (answer : SinkAnswer) (s : State) : (s.wiresAfterWrite bytes answer).ls = s.ls := rfl
@[simp] theorem State.wiresAfterWrite_frR (bytes : List Byte) (answer : SinkAnswer) (s : State) : (s.wiresAfterWrite bytes answer).frR = s.frR := rfl
@[simp] theorem State.wiresAfterWrite_frG (bytes : List Byte) (answer : SinkAnswer) (s : State) : (s.wiresAfterWrite bytes answer).frG = s.frG := rfl
@[simp] theorem State.wiresAfterWrite_frB (bytes : List Byte) (answer : SinkAnswer) (s : State) : (s.wiresAfterWrite bytes answer).frB = s.frB := rfl
@[simp] theorem State.wiresAfterWrite_out (bytes : List Byte) (answer : SinkAnswer) (s : State) : (s.wiresAfterWrite bytes answer).out = s.out := rfl
@[simp] theorem State.wiresAfterWrite_pos (bytes : List Byte) (answer : SinkAnswer) (s : State) : (s.wiresAfterWrite bytes answer).pos = s.pos := rfl
@[simp] theorem State.wiresAfterWrite_mode (bytes : List Byte) (answer : SinkAnswer) (s : State) : (s.wiresAfterWrite bytes answer).mode = s.mode := rfl
@[simp] theorem State.wiresAfterWrite_speed (bytes : List Byte) (answer : SinkAnswer) (s : State) : (s.wiresAfterWrite bytes answer).speed = s.speed := rfl
@[simp] theorem State.wiresAfterWrite_color (bytes : List Byte) (answer : SinkAnswer) (s : State) : (s.wiresAfterWrite bytes answer).color = s.color := rfl
@[simp] theorem State.wiresAfterWrite_beat (bytes : List Byte) (answer : SinkAnswer) (s : State) : (s.wiresAfterWrite bytes answer).beat = s.beat := rfl
@[simp] theorem State.wiresAfterWrite_throb (bytes : List Byte) (answer : SinkAnswer) (s : State) : (s.wiresAfterWrite bytes answer).throb = s.throb := rfl
@[simp] theorem State.wiresAfterWrite_simulate (bytes : List Byte) (answer : SinkAnswer) (s : State) : (s.wiresAfterWrite bytes answer).simulate = s.simulate := rfl
@[simp] theorem State.wiresAfterWrite_debug (bytes : List Byte) (answer : SinkAnswer) (s : State) : (s.wiresAfterWrite bytes answer).debug = s.debug := rfl
@[simp] theorem State.wiresAfterWrite_smoothedLoad (bytes : List Byte) (answer : SinkAnswer) (s : State) : (s.wiresAfterWrite bytes answer).smoothedLoad = s.smoothedLoad := rfl
@[simp] theorem State.wiresAfterWrite_renderedLoad (bytes : List Byte) (answer : SinkAnswer) (s : State) : (s.wiresAfterWrite bytes answer).renderedLoad = s.renderedLoad := rfl
@[simp] theorem State.wiresAfterWrite_tickBeat (bytes : List Byte) (answer : SinkAnswer) (s : State) : (s.wiresAfterWrite bytes answer).tickBeat = s.tickBeat := rfl
@[simp] theorem State.wiresAfterWrite_tickThrob (bytes : List Byte) (answer : SinkAnswer) (s : State) : (s.wiresAfterWrite bytes answer).tickThrob = s.tickThrob := rfl
@[simp] theorem State.wiresAfterWrite_tickPulse (bytes : List Byte) (answer : SinkAnswer) (s : State) : (s.wiresAfterWrite bytes answer).tickPulse = s.tickPulse := rfl
@[simp] theorem State.wiresAfterWrite_ccIndex (bytes : List Byte) (answer : SinkAnswer) (s : State) : (s.wiresAfterWrite bytes answer).ccIndex = s.ccIndex := rfl
@[simp] theorem State.wiresAfterWrite_ccStep (bytes : List Byte) (answer : SinkAnswer) (s : State) : (s.wiresAfterWrite bytes answer).ccStep = s.ccStep := rfl
@[simp] theorem State.wiresAfterWrite_stPhase (bytes : List Byte) (answer : SinkAnswer) (s : State) : (s.wiresAfterWrite bytes answer).stPhase = s.stPhase := rfl
@[simp] theorem State.wiresAfterWrite_stop (bytes : List Byte) (answer : SinkAnswer) (s : State) : (s.wiresAfterWrite bytes answer).stop = s.stop := rfl
@[simp] theorem State.wiresAfterWrite_fault (bytes : List Byte) (answer : SinkAnswer) (s : State) : (s.wiresAfterWrite bytes answer).fault = s.fault := rfl
@[simp] theorem State.wiresAfterWrite_inited (bytes : List Byte) (answer : SinkAnswer) (s : State) : (s.wiresAfterWrite bytes answer).inited = s.inited := rfl
@[simp] theorem State.wiresAfterWrite_smpHave (bytes : List Byte) (answer : SinkAnswer) (s : State) : (s.wiresAfterWrite bytes answer).smpHave = s.smpHave := rfl
@[simp] theorem State.wiresAfterWrite_smpLast (bytes : List Byte) (answer : SinkAnswer) (s : State) : (s.wiresAfterWrite bytes answer).smpLast = s.smpLast := rfl
@[simp] theorem State.wiresAfterWrite_phy (bytes : List Byte) (answer : SinkAnswer) (s : State) : (s.wiresAfterWrite bytes answer).phy = if wiresFollow answer then (bytes.getLast?.map (wiresOf linePins)).getD s.phy else Config.wires s.draws := rfl
@[simp] theorem State.wiresAfterWrite_outStream (bytes : List Byte) (answer : SinkAnswer) (s : State) : (s.wiresAfterWrite bytes answer).outStream = s.outStream := rfl
@[simp] theorem State.wiresAfterWrite_phase (bytes : List Byte) (answer : SinkAnswer) (s : State) : (s.wiresAfterWrite bytes answer).phase = s.phase := rfl
@[simp] theorem State.wiresAfterWrite_samplerOn (bytes : List Byte) (answer : SinkAnswer) (s : State) : (s.wiresAfterWrite bytes answer).samplerOn = s.samplerOn := rfl
@[simp] theorem State.wiresAfterWrite_exitStatus (bytes : List Byte) (answer : SinkAnswer) (s : State) : (s.wiresAfterWrite bytes answer).exitStatus = s.exitStatus := rfl
@[simp] theorem State.wiresAfterWrite_events (bytes : List Byte) (answer : SinkAnswer) (s : State) : (s.wiresAfterWrite bytes answer).events = s.events := rfl
@[simp] theorem State.wiresAfterWrite_ret (bytes : List Byte) (answer : SinkAnswer) (s : State) : (s.wiresAfterWrite bytes answer).ret = s.ret := rfl
@[simp] theorem State.wiresAfterWrite_issue (bytes : List Byte) (answer : SinkAnswer) (s : State) : (s.wiresAfterWrite bytes answer).issue = s.issue := rfl
@[simp] theorem State.wiresAfterWrite_draws (bytes : List Byte) (answer : SinkAnswer) (s : State) : (s.wiresAfterWrite bytes answer).draws = if wiresFollow answer then s.draws else s.draws + 1 := rfl
@[simp] theorem State.wiresAfterWrite_inCalls (bytes : List Byte) (answer : SinkAnswer) (s : State) : (s.wiresAfterWrite bytes answer).inCalls = s.inCalls := rfl
@[simp] theorem State.wiresAfterWrite_inSinks (bytes : List Byte) (answer : SinkAnswer) (s : State) : (s.wiresAfterWrite bytes answer).inSinks = s.inSinks := rfl
@[simp] theorem State.wiresAfterWrite_inMetrics (bytes : List Byte) (answer : SinkAnswer) (s : State) : (s.wiresAfterWrite bytes answer).inMetrics = s.inMetrics := rfl
@[simp] theorem State.wiresAfterWrite_inRecords (bytes : List Byte) (answer : SinkAnswer) (s : State) : (s.wiresAfterWrite bytes answer).inRecords = s.inRecords := rfl
@[simp] theorem State.wiresAfterWrite_inAgents (bytes : List Byte) (answer : SinkAnswer) (s : State) : (s.wiresAfterWrite bytes answer).inAgents = s.inAgents := rfl

/-! `State.tornDown` -/

@[simp] theorem State.tornDown_ls (s : State) : (s.tornDown).ls = s.ls := rfl
@[simp] theorem State.tornDown_frR (s : State) : (s.tornDown).frR = s.frR := rfl
@[simp] theorem State.tornDown_frG (s : State) : (s.tornDown).frG = s.frG := rfl
@[simp] theorem State.tornDown_frB (s : State) : (s.tornDown).frB = s.frB := rfl
@[simp] theorem State.tornDown_out (s : State) : (s.tornDown).out = s.out := rfl
@[simp] theorem State.tornDown_pos (s : State) : (s.tornDown).pos = s.pos := rfl
@[simp] theorem State.tornDown_mode (s : State) : (s.tornDown).mode = s.mode := rfl
@[simp] theorem State.tornDown_speed (s : State) : (s.tornDown).speed = s.speed := rfl
@[simp] theorem State.tornDown_color (s : State) : (s.tornDown).color = s.color := rfl
@[simp] theorem State.tornDown_beat (s : State) : (s.tornDown).beat = s.beat := rfl
@[simp] theorem State.tornDown_throb (s : State) : (s.tornDown).throb = s.throb := rfl
@[simp] theorem State.tornDown_simulate (s : State) : (s.tornDown).simulate = s.simulate := rfl
@[simp] theorem State.tornDown_debug (s : State) : (s.tornDown).debug = s.debug := rfl
@[simp] theorem State.tornDown_smoothedLoad (s : State) : (s.tornDown).smoothedLoad = s.smoothedLoad := rfl
@[simp] theorem State.tornDown_renderedLoad (s : State) : (s.tornDown).renderedLoad = s.renderedLoad := rfl
@[simp] theorem State.tornDown_tickBeat (s : State) : (s.tornDown).tickBeat = s.tickBeat := rfl
@[simp] theorem State.tornDown_tickThrob (s : State) : (s.tornDown).tickThrob = s.tickThrob := rfl
@[simp] theorem State.tornDown_tickPulse (s : State) : (s.tornDown).tickPulse = s.tickPulse := rfl
@[simp] theorem State.tornDown_ccIndex (s : State) : (s.tornDown).ccIndex = s.ccIndex := rfl
@[simp] theorem State.tornDown_ccStep (s : State) : (s.tornDown).ccStep = s.ccStep := rfl
@[simp] theorem State.tornDown_stPhase (s : State) : (s.tornDown).stPhase = s.stPhase := rfl
@[simp] theorem State.tornDown_stop (s : State) : (s.tornDown).stop = s.stop := rfl
@[simp] theorem State.tornDown_fault (s : State) : (s.tornDown).fault = s.fault := rfl
@[simp] theorem State.tornDown_inited (s : State) : (s.tornDown).inited = s.inited := rfl
@[simp] theorem State.tornDown_smpHave (s : State) : (s.tornDown).smpHave = s.smpHave := rfl
@[simp] theorem State.tornDown_smpLast (s : State) : (s.tornDown).smpLast = s.smpLast := rfl
@[simp] theorem State.tornDown_phy (s : State) : (s.tornDown).phy = if s.simulate then s.phy else Config.wires s.draws := rfl
@[simp] theorem State.tornDown_outStream (s : State) : (s.tornDown).outStream = s.outStream := rfl
@[simp] theorem State.tornDown_phase (s : State) : (s.tornDown).phase = .awaitExit := rfl
@[simp] theorem State.tornDown_samplerOn (s : State) : (s.tornDown).samplerOn = s.samplerOn := rfl
@[simp] theorem State.tornDown_exitStatus (s : State) : (s.tornDown).exitStatus = s.exitStatus := rfl
@[simp] theorem State.tornDown_events (s : State) : (s.tornDown).events = if s.simulate then s.events else s.events ++ [.teardown] := rfl
@[simp] theorem State.tornDown_ret (s : State) : (s.tornDown).ret = s.ret := rfl
@[simp] theorem State.tornDown_issue (s : State) : (s.tornDown).issue = s.issue := rfl
@[simp] theorem State.tornDown_draws (s : State) : (s.tornDown).draws = if s.simulate then s.draws else s.draws + 1 := rfl
@[simp] theorem State.tornDown_inCalls (s : State) : (s.tornDown).inCalls = s.inCalls := rfl
@[simp] theorem State.tornDown_inSinks (s : State) : (s.tornDown).inSinks = s.inSinks := rfl
@[simp] theorem State.tornDown_inMetrics (s : State) : (s.tornDown).inMetrics = s.inMetrics := rfl
@[simp] theorem State.tornDown_inRecords (s : State) : (s.tornDown).inRecords = s.inRecords := rfl
@[simp] theorem State.tornDown_inAgents (s : State) : (s.tornDown).inAgents = s.inAgents := rfl

end Sys2Proof.Machine
end

