-- ==== Sys2Proof/Laws/Ops.lean ====
section
/-! SUPPORT. What the shared operations can do, said once: who may move, the sink's answers, taking an exception, the
address spaces; and each arm of `exec` by the operation it performs. -/

namespace Sys2Proof.Machine

/-! Who may move. -/

theorem State.ready_iff (s : State) : s.Ready ↔ s.ended = false ∧ s.fault.isSome = false := by
  simp [State.Ready, State.ended]

/-- An operation of the render agent in a state where it can move. -/
theorem asRender_of_ready {s : State} (h : s.Ready) (o : StepOutcome) : asRender s o = o := by
  rcases (State.ready_iff s).1 h with ⟨he, hf⟩
  simp [asRender, he, hf]

/-- If an operation of the render agent answers a next state, the agent could move and the operation gave that state. -/
theorem asRender_eq_next {s t : State} {o : StepOutcome} : asRender s o = .next t ↔ s.Ready ∧ o = .next t := by
  rw [State.ready_iff]
  unfold asRender
  cases s.ended <;> cases s.fault.isSome <;> simp

/-- An operation of the sampler or the host before the end of the run. -/
theorem whileRunning_of_running {s : State} (h : s.exitStatus = none) (o : StepOutcome) : whileRunning s o = o := by
  simp [whileRunning, State.ended, h]

/-- If an operation of the sampler or the host answers a next state, the run had not ended and the operation gave
that state. -/
theorem whileRunning_eq_next {s t : State} {o : StepOutcome} :
    whileRunning s o = .next t ↔ s.exitStatus = none ∧ o = .next t := by
  cases h : s.exitStatus <;> simp [whileRunning, State.ended, h]

/-- When a transaction may go to the sink. -/
theorem State.sinkReady_iff (s : State) : s.sinkReady = true ↔ s.simulate = true ∨ s.inited = true := by
  simp [State.sinkReady]

/-- An operation that does not send, or may. -/
theorem guardSend_of_ready {sends : Bool} {s : State} (h : sends = true → s.sinkReady = true) (r : Refusal)
    (o : StepOutcome) : guardSend sends r s o = o := by
  cases sends <;> simp_all [guardSend]

/-- If an operation that may send answers a next state, then it did not send or was allowed to, and the operation gave
that state. -/
theorem guardSend_eq_next {sends : Bool} {r : Refusal} {s t : State} {o : StepOutcome} :
    guardSend sends r s o = .next t ↔ (sends = true → s.sinkReady = true) ∧ o = .next t := by
  unfold guardSend
  cases sends <;> cases s.sinkReady <;> simp

/-! The arms of `exec`. -/

theorem exec_setd (b : Bool) (s : State) : exec (.setd b) s = asRender s (.next (s.setd b)) := rfl
theorem exec_clkh (s : State) : exec .clkh s = asRender s (.next s.clkh) := rfl
theorem exec_clkl (s : State) : exec .clkl s = asRender s (.next s.clkl) := rfl
theorem exec_emit (s : State) : exec .emit s = asRender s (.next s.emit) := rfl
theorem exec_encbit (b : Bool) (s : State) : exec (.encbit b) s = asRender s (.next (s.encBit b)) := rfl
theorem exec_encbyte (v : Nat) (s : State) : exec (.encbyte v) s = asRender s (.next (s.encByte (trunc8 v))) := rfl
theorem exec_encframe (r g b : Nat) (s : State) :
    exec (.encframe r g b) s = asRender s (.next (s.encFrame r g b)) := rfl
theorem exec_sendframe (r g b : Nat) (s : State) :
    exec (.sendframe r g b) s =
      asRender s (guardSend true .sendframeBeforeInit s (.next (s.sendFrame r g b))) := rfl
theorem exec_decframe (bytes : List Byte) (s : State) :
    exec (.decframe bytes) s = .next (s.returning (decframeResult bytes)) := rfl
theorem exec_tickCpuload (s : State) :
    exec .tickCpuload s = asRender s (.next (s.cpuTick.returning (.frame s.cpuFrame))) := rfl
theorem exec_tickCycle (s : State) :
    exec .tickCycle s = asRender s (.next (s.cycleTick.returning (.frame s.cycleFrame))) := rfl
theorem exec_tickPulse (s : State) :
    exec .tickPulse s = asRender s (.next (s.pulseTick.returning (.frame s.pulseFrame))) := rfl
theorem exec_stepStatic (s : State) :
    exec .stepStatic s = asRender s
      (if s.stPhase = .done then .fault .staticDone
      else guardSend s.staticSends .stepStaticBeforeInit s (.next s.staticStep)) := rfl
theorem exec_unpack (c : BitVec 24) (s : State) :
    exec (.unpack c) s = asRender s (.next (s.returning (.frame (unpackColor c)))) := rfl
theorem exec_sample (s : State) :
    exec .sample s = whileRunning s (.next (s.afterMetricAnswer.returning (sampleResult s.metricAnswer))) := rfl
theorem exec_smploop (s : State) :
    exec .smploop s = whileRunning s (.next (s.afterMetricAnswer.keepSample (sampleResult s.metricAnswer))) := rfl
theorem exec_config (c : ConfigRecord) (s : State) :
    exec (.config c) s =
      asRender s (if s.phase = .awaitConfig then .next (s.configure c) else .refused .configTwice) := rfl
theorem exec_init (s : State) :
    exec .init s = asRender s
      (if s.simulate then .next { s with phase := phaseAfterInit s.phase }
      else if s.inited then .refused .initTwice
      else .next (s.afterDeviceAnswer.initWith s.deviceAnswer)) := rfl
theorem exec_runtick (s : State) :
    exec .runtick s = asRender s (guardSend s.tickSends .runtickBeforeInit s (.next s.runTick)) := rfl
theorem exec_write (bytes : List Byte) (s : State) :
    exec (.write bytes) s = asRender s
      (if s.simulate then .refused .writeUnderSimulate
      else guardSend true .writeBeforeInit s
        (.next ((s.deviceWrite bytes).returning (writeResult s.sinkAnswer)))) := rfl
theorem exec_simwrite (bytes : List Byte) (t : Rgb) (s : State) :
    exec (.simwrite bytes t) s = asRender s (.next ((s.simWrite bytes t).returning .sinkOk)) := rfl
theorem exec_teardown (s : State) : exec .teardown s = asRender s (.next s.tornDown) := rfl
theorem exec_exit (code : ExitCode) (s : State) :
    exec (.exit code) s =
      if s.ended then .fault .runEnded
      else if s.fault.isSome ∧ code = .ok then .fault .renderHalted
      else .next (s.endRun (statusOf code)) := rfl
theorem exec_stopreq (s : State) :
    exec .stopreq s = whileRunning s (.next (if s.fault.isSome then s else { s with stop := true })) := rfl

/-! The configuration record. -/

/-- Which options are illegal, one by one. -/
theorem mem_illegalOptions (c : ConfigRecord) (o : OptionName) :
    o ∈ illegalOptions c ↔ (o = .mode ∧ c.mode = .bad) ∨ (o = .speed ∧ c.speed = .bad) ∨
      (o = .color ∧ (c.color = .bad ∨ ∃ n, c.color = .given n ∧ 2 ^ 24 ≤ n)) ∨ (o = .beat ∧ c.beat = .bad) ∨
      (o = .throb ∧ c.throb = .bad) ∨ (o = .simulate ∧ c.simulate = .bad) ∨ (o = .debug ∧ c.debug = .bad) ∨
      (o = .unknown ∧ c.unknownOption = true) := by
  have bad : ∀ {α : Type} (x : Supplied α), suppliedBad x = true ↔ x = .bad := by
    intro α x
    cases x <;> simp [suppliedBad]
  have color : colorIllegal c.color = true ↔ c.color = .bad ∨ ∃ n, c.color = .given n ∧ 2 ^ 24 ≤ n := by
    cases c.color <;> simp [colorIllegal]
  have one : ∀ (b : Bool) (p : OptionName), o ∈ offending b p ↔ o = p ∧ b = true := by
    intro b p
    cases b <;> simp [offending]
  simp only [illegalOptions, List.mem_append, one, bad, color, or_assoc]

/-- A record is legal when none of its options is illegal. -/
theorem illegalOptions_eq_nil (c : ConfigRecord) :
    illegalOptions c = [] ↔ c.mode ≠ .bad ∧ c.speed ≠ .bad ∧
      (c.color ≠ .bad ∧ ∀ n, c.color = .given n → n < 2 ^ 24) ∧ c.beat ≠ .bad ∧ c.throb ≠ .bad ∧ c.simulate ≠ .bad ∧
      c.debug ≠ .bad ∧ c.unknownOption = false := by
  simp only [List.eq_nil_iff_forall_not_mem, mem_illegalOptions]
  constructor
  · intro h
    refine ⟨fun e => h .mode (by simp [e]), fun e => h .speed (by simp [e]),
      ⟨fun e => h .color (by simp [e]), fun n e => ?_⟩, fun e => h .beat (by simp [e]), fun e => h .throb (by simp [e]),
      fun e => h .simulate (by simp [e]), fun e => h .debug (by simp [e]), ?_⟩
    · exact Nat.lt_of_not_le fun hn => h .color (by simp [e]; omega)
    · exact Bool.eq_false_iff.2 fun e => h .unknown (by simp [e])
  · rintro ⟨h1, h2, ⟨h3, h4⟩, h5, h6, h7, h8, h9⟩ o
    simp only [h1, h2, h3, h5, h6, h7, h8, h9, and_false, false_or, or_false, Bool.false_eq_true, not_and, not_exists]
    exact fun _ n hn hle => absurd (h4 n hn) (Nat.not_lt.2 hle)

/-! Keeping a sample. -/

/-- `keepSample` writes the sampler's own state and the load cell where the result is a percentage, and otherwise
nothing. -/
theorem State.keepSample_eq (x : Result) (s : State) :
    (∃ p, x = .percent p ∧ s.keepSample x = { s with smpLast := p, smpHave := true, smoothedLoad := p }) ∨
      ((∀ p, x ≠ .percent p) ∧ s.keepSample x = s) := by
  cases x <;> simp [State.keepSample, State.writeLoadCell]

/-! The parameters. -/

theorem linePins_distinct : linePins.clock ≠ linePins.data := by
  have h : ∀ (c : Fin 8) (d : Fin 7), c ≠ c + 1 + ⟨d, by omega⟩ := by decide
  exact h _ _

theorem exitFail_ne_zero : exitFail ≠ 0 := by
  unfold exitFail
  split <;> omega

theorem sine_zero (d : Nat) : sine 0 d = 0 := rfl

theorem sine_range (n d : Nat) : -1 ≤ sine n d ∧ sine n d ≤ 1 := by
  unfold sine
  split
  · constructor <;> norm_num
  · exact ⟨le_max_left _ _, max_le (by norm_num) (min_le_left _ _)⟩

/-- Truncation of a number between two naturals lies between them. -/
theorem trunc_range {x : Rat} {a b : Nat} (ha : (a : Rat) ≤ x) (hb : x ≤ b) : a ≤ trunc x ∧ trunc x ≤ b := by
  have h0 : (a : Int) ≤ x.floor := Rat.le_floor_iff.2 (by exact_mod_cast ha)
  have h1 : x.floor ≤ (b : Int) := by
    have : (x.floor : Rat) ≤ b := le_trans (Rat.floor_le x) hb
    exact_mod_cast this
  unfold trunc
  omega

/-- Truncation of a quotient of naturals is their integer division. -/
theorem trunc_div (n d : Nat) : trunc ((n : Rat) / d) = n / d := by
  have h : ((n : Rat) / d).floor = ((n / d : Nat) : Int) := by
    have := Rat.floor_natCast_div_natCast n d
    push_cast
    exact this
  rw [trunc, h, Int.toNat_natCast]

theorem trunc_natCast (n : Nat) : trunc (n : Rat) = n := by simpa using trunc_div n 1

end Sys2Proof.Machine
end

