-- ==== Sys2Proof/Laws/Line.lean ====
section
/-! SUPPORT. The line code: what the three writes of the flags do to CLOCK, DATA and the reserved bits; the encoder's
operations as functions that thread the line state; the length of what they append. -/

namespace Sys2Proof.Machine

/-! The masks and the two flags. -/

theorem Pins.getLsbD_clockMask (p : Pins) (i : Nat) : p.clockMask.getLsbD i = decide (i = p.clock.val) := by
  have := p.clock.isLt
  rw [Pins.clockMask, BitVec.getLsbD_shiftLeft]
  by_cases h : i = p.clock.val
  · simp [h]
  · simp [h]
    omega

theorem Pins.getLsbD_dataMask (p : Pins) (i : Nat) : p.dataMask.getLsbD i = decide (i = p.data.val) := by
  have := p.data.isLt
  rw [Pins.dataMask, BitVec.getLsbD_shiftLeft]
  by_cases h : i = p.data.val
  · simp [h]
  · simp [h]
    omega

/-- `SETD` bit by bit. -/
theorem getLsbD_setData (p : Pins) (b : Bool) (ls : Byte) (i : Nat) :
    (setData p b ls).getLsbD i = if i = p.data.val then b else ls.getLsbD i := by
  have := p.data.isLt
  unfold setData
  by_cases h : i = p.data.val <;> cases b <;> simp [h, Pins.getLsbD_dataMask]
  intro hi
  by_contra hn
  simp [BitVec.getLsbD_of_ge ls i (by omega)] at hi

/-- `CLKH` bit by bit. -/
theorem getLsbD_clockHigh (p : Pins) (ls : Byte) (i : Nat) :
    (clockHigh p ls).getLsbD i = if i = p.clock.val then true else ls.getLsbD i := by
  unfold clockHigh
  by_cases h : i = p.clock.val <;> simp [h, Pins.getLsbD_clockMask]

/-- `CLKL` bit by bit. -/
theorem getLsbD_clockLow (p : Pins) (ls : Byte) (i : Nat) :
    (clockLow p ls).getLsbD i = if i = p.clock.val then false else ls.getLsbD i := by
  unfold clockLow
  by_cases h : i = p.clock.val <;> simp [h, Pins.getLsbD_clockMask]
  intro hi
  by_contra hn
  simp [BitVec.getLsbD_of_ge ls i (by omega)] at hi

/-- The reserved bits bit by bit. -/
theorem getLsbD_reservedOf (p : Pins) (ls : Byte) (i : Nat) :
    (reservedOf p ls).getLsbD i = (ls.getLsbD i && !decide (i = p.clock.val) && !decide (i = p.data.val)) := by
  by_cases hi : i < 8
  · simp only [reservedOf, BitVec.getLsbD_and, BitVec.getLsbD_not, BitVec.getLsbD_or, hi, Pins.getLsbD_clockMask,
      Pins.getLsbD_dataMask, decide_true, Bool.true_and, Bool.not_or, Bool.and_assoc]
  · simp [BitVec.getLsbD_of_ge _ i (Nat.le_of_not_lt hi)]

theorem clockOf_setData {p : Pins} (h : p.clock ≠ p.data) (b : Bool) (ls : Byte) :
    clockOf p (setData p b ls) = clockOf p ls := by
  rw [clockOf, getLsbD_setData, if_neg (Fin.val_ne_of_ne h)]
  rfl

@[simp] theorem dataOf_setData (p : Pins) (b : Bool) (ls : Byte) : dataOf p (setData p b ls) = b := by
  rw [dataOf, getLsbD_setData, if_pos rfl]

@[simp] theorem reservedOf_setData (p : Pins) (b : Bool) (ls : Byte) :
    reservedOf p (setData p b ls) = reservedOf p ls := by
  apply BitVec.eq_of_getLsbD_eq
  intro i _
  simp only [getLsbD_reservedOf, getLsbD_setData]
  by_cases h : i = p.data.val <;> simp [h]

@[simp] theorem clockOf_clockHigh (p : Pins) (ls : Byte) : clockOf p (clockHigh p ls) = true := by
  rw [clockOf, getLsbD_clockHigh, if_pos rfl]

theorem dataOf_clockHigh {p : Pins} (h : p.clock ≠ p.data) (ls : Byte) :
    dataOf p (clockHigh p ls) = dataOf p ls := by
  rw [dataOf, getLsbD_clockHigh, if_neg (Fin.val_ne_of_ne h.symm)]
  rfl

@[simp] theorem reservedOf_clockHigh (p : Pins) (ls : Byte) : reservedOf p (clockHigh p ls) = reservedOf p ls := by
  apply BitVec.eq_of_getLsbD_eq
  intro i _
  simp only [getLsbD_reservedOf, getLsbD_clockHigh]
  by_cases h : i = p.clock.val <;> simp [h]

@[simp] theorem clockOf_clockLow (p : Pins) (ls : Byte) : clockOf p (clockLow p ls) = false := by
  rw [clockOf, getLsbD_clockLow, if_pos rfl]

theorem dataOf_clockLow {p : Pins} (h : p.clock ≠ p.data) (ls : Byte) : dataOf p (clockLow p ls) = dataOf p ls := by
  rw [dataOf, getLsbD_clockLow, if_neg (Fin.val_ne_of_ne h.symm)]
  rfl

@[simp] theorem reservedOf_clockLow (p : Pins) (ls : Byte) : reservedOf p (clockLow p ls) = reservedOf p ls := by
  apply BitVec.eq_of_getLsbD_eq
  intro i _
  simp only [getLsbD_reservedOf, getLsbD_clockLow]
  by_cases h : i = p.clock.val <;> simp [h]

/-- Two line-state bytes with the same CLOCK, DATA and reserved bits are equal. -/
theorem line_ext {p : Pins} {x y : Byte} (hc : clockOf p x = clockOf p y) (hd : dataOf p x = dataOf p y)
    (hr : reservedOf p x = reservedOf p y) : x = y := by
  apply BitVec.eq_of_getLsbD_eq
  intro i _
  have h := congrArg (fun z => BitVec.getLsbD z i) hr
  simp only [getLsbD_reservedOf] at h
  by_cases h1 : i = p.clock.val
  · rw [h1]
    exact hc
  · by_cases h2 : i = p.data.val
    · rw [h2]
      exact hd
    · simpa [h1, h2] using h

theorem clockOf_zero (p : Pins) : clockOf p 0 = false := by simp [clockOf]

theorem reservedOf_zero (p : Pins) : reservedOf p 0 = 0 := by simp [reservedOf]

/-! The encoder's operations as functions. -/

/-- The formula of `EncBit` is the expansion `SETD`, `CLKH`, `CLKL`. -/
theorem encBitFun_eq (p : Pins) (b : Bool) (ls : Byte) :
    encBitFun p b ls =
      ([setData p b ls, clockHigh p (setData p b ls), clockLow p (clockHigh p (setData p b ls))],
        clockLow p (clockHigh p (setData p b ls))) := by
  have hd : (ls &&& ~~~p.dataMask) ||| (BitVec.zeroExtend 8 (BitVec.ofBool b) <<< p.data.val) = setData p b ls := by
    apply BitVec.eq_of_getLsbD_eq
    intro i hi
    rw [getLsbD_setData]
    cases b
    · by_cases h1 : i = p.data.val <;> simp [h1, Pins.getLsbD_dataMask]
      intro; omega
    · have e : BitVec.zeroExtend 8 (BitVec.ofBool true) <<< p.data.val = p.dataMask := rfl
      rw [e]
      simp only [BitVec.getLsbD_or, BitVec.getLsbD_and, BitVec.getLsbD_not, hi, Pins.getLsbD_dataMask]
      by_cases h1 : i = p.data.val <;> simp [h1]
  have hl : ∀ x : Byte, x &&& ~~~p.clockMask = clockLow p (clockHigh p x) := by
    intro x
    apply BitVec.eq_of_getLsbD_eq
    intro i hi
    rw [getLsbD_clockLow, getLsbD_clockHigh]
    simp only [BitVec.getLsbD_and, BitVec.getLsbD_not, hi, Pins.getLsbD_clockMask]
    by_cases h1 : i = p.clock.val <;> simp [h1]
  simp only [encBitFun, hd, hl]
  rfl

/-- `ENCBIT` on the state is `EncBit` on the register. -/
theorem State.encBit_eq (b : Bool) (s : State) :
    s.encBit b = { s with
      ls := (encBitFun linePins b s.ls).2
      out := s.out ++ (encBitFun linePins b s.ls).1
      pos := s.pos + 3 } := by
  rw [encBitFun_eq]
  simp [State.encBit, State.setd, State.emit, State.clkh, State.clkl]

/-- `ENCBIT` for a list of bits is the fold of `EncBit` over it. -/
theorem State.encBits_eq (bits : List Bool) (s : State) :
    s.encBits bits = { s with
      ls := (encBitsFun linePins bits s.ls).2
      out := s.out ++ (encBitsFun linePins bits s.ls).1
      pos := s.pos + 3 * bits.length } := by
  induction bits generalizing s with
  | nil => simp [State.encBits, encBitsFun]
  | cons b bs ih =>
    have : s.encBits (b :: bs) = (s.encBit b).encBits bs := rfl
    rw [this, ih, State.encBit_eq]
    simp [encBitsFun, Nat.mul_succ, Nat.add_comm, Nat.add_assoc]

/-- `ENCBYTE` on the state is `EncByte` on the register. -/
theorem State.encByte_eq (v : Byte) (s : State) :
    s.encByte v = { s with
      ls := (encByteFun linePins v s.ls).2
      out := s.out ++ (encByteFun linePins v s.ls).1
      pos := s.pos + 24 } := by
  rw [State.encByte, State.encBits_eq]
  rfl

/-- `ENCFRAME` on the state is `EncFrame` on the register. -/
theorem State.encFrame_eq (r g b : Nat) (s : State) :
    s.encFrame r g b = { s with
      frR := trunc8 r
      frG := trunc8 g
      frB := trunc8 b
      ls := (encFrameFun linePins ⟨trunc8 r, trunc8 g, trunc8 b⟩ s.ls).2
      out := (encFrameFun linePins ⟨trunc8 r, trunc8 g, trunc8 b⟩ s.ls).1
      pos := 72 } := by
  simp [State.encFrame, State.encByte_eq, encFrameFun, State.latchFrame, State.clearOut]

/-! Lengths, and where the encoder leaves the register. -/

theorem encBitFun_length (p : Pins) (b : Bool) (ls : Byte) : (encBitFun p b ls).1.length = 3 := rfl

theorem encBitsFun_length (p : Pins) (bits : List Bool) (ls : Byte) :
    (encBitsFun p bits ls).1.length = 3 * bits.length := by
  induction bits generalizing ls with
  | nil => rfl
  | cons b bs ih => simp [encBitsFun, encBitFun_length, ih]; omega

theorem encByteFun_length (p : Pins) (v ls : Byte) : (encByteFun p v ls).1.length = 24 :=
  encBitsFun_length p (bitsSent v) ls

theorem encFrameFun_length (p : Pins) (c : Rgb) (ls : Byte) : (encFrameFun p c ls).1.length = 72 := by
  simp [encFrameFun, encByteFun_length]

/-- `EncBit` ends with CLOCK low, DATA the bit sent, and the reserved bits as it found them. -/
theorem encBitFun_ends {p : Pins} (h : p.clock ≠ p.data) (b : Bool) (ls : Byte) :
    clockOf p (encBitFun p b ls).2 = false ∧ dataOf p (encBitFun p b ls).2 = b ∧
      reservedOf p (encBitFun p b ls).2 = reservedOf p ls := by
  rw [encBitFun_eq]
  simp [dataOf_clockLow h, dataOf_clockHigh h]

theorem encBitsFun_reserved {p : Pins} (h : p.clock ≠ p.data) (bits : List Bool) (ls : Byte) :
    reservedOf p (encBitsFun p bits ls).2 = reservedOf p ls := by
  induction bits generalizing ls with
  | nil => rfl
  | cons b bs ih => exact (ih _).trans (encBitFun_ends h b ls).2.2

/-- After a non-empty list of bits CLOCK is low and DATA is the last bit. -/
theorem encBitsFun_ends {p : Pins} (h : p.clock ≠ p.data) (bits : List Bool) (b : Bool) (ls : Byte) :
    clockOf p (encBitsFun p (bits ++ [b]) ls).2 = false ∧ dataOf p (encBitsFun p (bits ++ [b]) ls).2 = b := by
  induction bits generalizing ls with
  | nil => exact ⟨(encBitFun_ends h b ls).1, (encBitFun_ends h b ls).2.1⟩
  | cons c cs ih => exact ih _

/-- `EncByte` ends at rest: CLOCK low, DATA bit 0 of the value, reserved bits as found. -/
theorem encByteFun_ends {p : Pins} (h : p.clock ≠ p.data) (v ls : Byte) :
    clockOf p (encByteFun p v ls).2 = false ∧ dataOf p (encByteFun p v ls).2 = v.getLsbD 0 ∧
      reservedOf p (encByteFun p v ls).2 = reservedOf p ls := by
  have e := encBitsFun_ends h ([7, 6, 5, 4, 3, 2, 1].map fun i => v.getLsbD i) (v.getLsbD 0) ls
  exact ⟨e.1, e.2, encBitsFun_reserved h _ ls⟩

/-- `EncFrame` ends at rest: CLOCK low, DATA bit 0 of blue, reserved bits as found. -/
theorem encFrameFun_ends {p : Pins} (h : p.clock ≠ p.data) (c : Rgb) (ls : Byte) :
    clockOf p (encFrameFun p c ls).2 = false ∧ dataOf p (encFrameFun p c ls).2 = c.b.getLsbD 0 ∧
      reservedOf p (encFrameFun p c ls).2 = reservedOf p ls := by
  have e := encByteFun_ends h c.b (encByteFun p c.g (encByteFun p c.r ls).2).2
  refine ⟨e.1, e.2.1, e.2.2.trans ?_⟩
  rw [(encByteFun_ends h c.g _).2.2, (encByteFun_ends h c.r _).2.2]

end Sys2Proof.Machine
end

