-- ==== Sys2Proof/Laws/Run.lean ====
section
/-! SUPPORT. Everything a transaction can do to the state, everything a step can do, and everything the machine's own
order can ask for. -/

namespace Sys2Proof.Machine

/-! Transactions. -/

theorem State.frameBytes_length (r g b : Nat) (s : State) : (s.frameBytes r g b).length = 72 :=
  encFrameFun_length _ _ _

/-- A `SENDFRAME` under `SIMULATE`, field by field. -/
theorem State.sendFrameSim_eq (r g b : Nat) (s : State) :
    s.sendFrameSim r g b = { s with
      frR := trunc8 r
      frG := trunc8 g
      frB := trunc8 b
      ls := s.frameLine r g b
      out := []
      pos := 0
      outStream := s.outStream ++ s.frameBytes r g b
      events := s.events ++ [.simWrite (s.frameBytes r g b) ⟨trunc8 r, trunc8 g, trunc8 b⟩
        (Config.simFormat ⟨trunc8 r, trunc8 g, trunc8 b⟩)] } := by
  simp only [State.sendFrameSim, State.encFrame_eq]
  rfl

/-- A `SENDFRAME` on the device sink that the sink takes, field by field. -/
theorem State.sendFrameWith_ok (r g b : Nat) (s : State) :
    s.sendFrameWith r g b .ok = { s with
      frR := trunc8 r
      frG := trunc8 g
      frB := trunc8 b
      ls := s.frameLine r g b
      out := []
      pos := 0
      outStream := s.outStream ++ s.frameBytes r g b
      events := s.events ++ [.write (s.frameBytes r g b) .ok]
      phy := ((s.frameBytes r g b).getLast?.map (wiresOf linePins)).getD s.phy } := by
  simp only [State.sendFrameWith, State.encFrame_eq]
  rfl

/-- A `SENDFRAME` on the device sink that fails after `n` bytes, field by field. -/
theorem State.sendFrameWith_fail (r g b : Nat) (n : Fin 73) (s : State) :
    s.sendFrameWith r g b (.fail n) = { s with
      frR := trunc8 r
      frG := trunc8 g
      frB := trunc8 b
      ls := s.frameLine r g b
      out := []
      pos := 0
      outStream := s.outStream ++ (s.frameBytes r g b).take n
      events := s.events ++ [.write (s.frameBytes r g b) (.fail n)] ++
        [.message (.writeFailure (s.frameBytes r g b)) (Config.messageText (.writeFailure (s.frameBytes r g b)))]
      phy := Config.wires s.draws
      draws := s.draws + 1
      fault := some (.writeFailure (s.frameBytes r g b)) } := by
  simp only [State.sendFrameWith, State.encFrame_eq]
  rfl

/-- The three ways a `SENDFRAME` can go. -/
theorem State.sendFrame_cases (r g b : Nat) (s : State) :
    (s.simulate = true ∧ s.sendFrame r g b = s.sendFrameSim r g b) ∨
      (s.simulate = false ∧ s.sinkAnswer = .ok ∧ s.sendFrame r g b = s.afterSinkAnswer.sendFrameWith r g b .ok) ∨
      (s.simulate = false ∧ ∃ n, s.sinkAnswer = .fail n ∧
        s.sendFrame r g b = s.afterSinkAnswer.sendFrameWith r g b (.fail n)) := by
  unfold State.sendFrame
  cases hs : s.simulate
  · cases ha : s.sinkAnswer with
    | ok => exact .inr (.inl ⟨rfl, rfl, rfl⟩)
    | fail n => exact .inr (.inr ⟨rfl, n, rfl, rfl⟩)
  · exact .inl ⟨rfl, rfl⟩

/-! The other composite operations, field by field: nested record updates unfold slowly, these do not. -/

/-- Taking an exception. -/
theorem State.raise_eq (c : FatalCause) (s : State) :
    s.raise c = { s with fault := some c, events := s.events ++ [.message c (Config.messageText c)] } := rfl

/-- The end of a run. -/
theorem State.endRun_eq (status : Int) (s : State) :
    s.endRun status = { s with
      exitStatus := some status, samplerOn := false, events := s.events ++ [.exit status] } := rfl

/-- The simulation sink. -/
theorem State.simWrite_eq (bytes : List Byte) (t : Rgb) (s : State) :
    s.simWrite bytes t = { s with
      outStream := s.outStream ++ bytes, events := s.events ++ [.simWrite bytes t (Config.simFormat t)] } := rfl

/-- The device sink under an answer. -/
theorem State.deviceWriteWith_eq (bytes : List Byte) (a : SinkAnswer) (s : State) :
    s.deviceWriteWith bytes a = { s with
      outStream := s.outStream ++ deliveredBytes bytes a
      events := s.events ++ [.write bytes a]
      phy := if wiresFollow a then (bytes.getLast?.map (wiresOf linePins)).getD s.phy else Config.wires s.draws
      draws := if wiresFollow a then s.draws else s.draws + 1 } := rfl

/-- A refused record. -/
theorem State.rejectConfig_eq (illegal : List OptionName) (s : State) :
    s.rejectConfig illegal = { s with
      fault := some (.configurationInvalid (offendingOption (Config.whichOption s.draws) illegal))
      events := s.events ++
        [.message (.configurationInvalid (offendingOption (Config.whichOption s.draws) illegal))
          (Config.messageText (.configurationInvalid (offendingOption (Config.whichOption s.draws) illegal)))]
      draws := s.draws + 1 } := rfl

/-- The option named for an illegal record is illegal in it. -/
theorem offendingOption_mem {illegal : List OptionName} (h : illegal ≠ []) (draw : Nat) :
    offendingOption draw illegal ∈ illegal := by
  have hl : draw % illegal.length < illegal.length := Nat.mod_lt _ (List.length_pos_of_ne_nil h)
  unfold offendingOption
  rw [List.getD_eq_getElem _ _ hl]
  exact List.getElem_mem hl

/-- The device enters its line-output mode. -/
theorem State.initWith_true (s : State) :
    s.initWith true = { s with
      inited := true
      phase := phaseAfterInit s.phase
      events := s.events ++ [.enterBitbang Config.bitbangMask true]
      phy := Config.wires s.draws
      draws := s.draws + 1 } := rfl

/-- The device does not enter its line-output mode. -/
theorem State.initWith_false (s : State) :
    s.initWith false = { s with
      fault := some (.deviceUnavailable .enteringBitbang)
      events := s.events ++ [.enterBitbang Config.bitbangMask false] ++
        [.message (.deviceUnavailable .enteringBitbang) (Config.messageText (.deviceUnavailable .enteringBitbang))]
      phy := Config.wires s.draws
      draws := s.draws + 1 } := rfl

/-- The device opens. -/
theorem State.openWith_true (s : State) :
    s.openWith true = { s with
      phase := if s.inited then .awaitSampler else .awaitInit
      events := s.events ++ [.openDevice true] } := rfl

/-- The device does not open. -/
theorem State.openWith_false (s : State) :
    s.openWith false = { s with
      fault := some (.deviceUnavailable .opening)
      events := s.events ++ [.openDevice false] ++
        [.message (.deviceUnavailable .opening) (Config.messageText (.deviceUnavailable .opening))] } := rfl

/-- A frame ends with CLOCK low, DATA bit 0 of blue, and the reserved bits as it found them. -/
theorem State.frameLine_ends (r g b : Nat) (s : State) :
    clockOf linePins (s.frameLine r g b) = false ∧ dataOf linePins (s.frameLine r g b) = (trunc8 b).getLsbD 0 ∧
      reservedOf linePins (s.frameLine r g b) = reservedOf linePins s.ls :=
  encFrameFun_ends linePins_distinct ⟨trunc8 r, trunc8 g, trunc8 b⟩ s.ls

/-- A `SENDFRAME` reads and writes neither the mode's state nor the sampler's, the configuration, `STOP`, `INITED`, the
place in the run or the returned value, and it leaves the encoder's buffer empty. -/
theorem State.sendFrame_frame (r g b : Nat) (s : State) :
    ((s.sendFrame r g b).mode = s.mode ∧ (s.sendFrame r g b).speed = s.speed ∧ (s.sendFrame r g b).color = s.color ∧
      (s.sendFrame r g b).beat = s.beat ∧ (s.sendFrame r g b).throb = s.throb ∧
      (s.sendFrame r g b).simulate = s.simulate ∧ (s.sendFrame r g b).debug = s.debug) ∧
    ((s.sendFrame r g b).smoothedLoad = s.smoothedLoad ∧ (s.sendFrame r g b).smpHave = s.smpHave ∧
      (s.sendFrame r g b).smpLast = s.smpLast ∧ (s.sendFrame r g b).renderedLoad = s.renderedLoad ∧
      (s.sendFrame r g b).tickBeat = s.tickBeat ∧ (s.sendFrame r g b).tickThrob = s.tickThrob ∧
      (s.sendFrame r g b).tickPulse = s.tickPulse ∧ (s.sendFrame r g b).ccIndex = s.ccIndex ∧
      (s.sendFrame r g b).ccStep = s.ccStep ∧ (s.sendFrame r g b).stPhase = s.stPhase) ∧
    ((s.sendFrame r g b).stop = s.stop ∧ (s.sendFrame r g b).inited = s.inited ∧
      (s.sendFrame r g b).phase = s.phase ∧ (s.sendFrame r g b).samplerOn = s.samplerOn ∧
      (s.sendFrame r g b).exitStatus = s.exitStatus ∧ (s.sendFrame r g b).ret = s.ret ∧
      (s.sendFrame r g b).issue = s.issue) ∧
    ((s.sendFrame r g b).out = [] ∧ (s.sendFrame r g b).pos = 0 ∧
      (s.sendFrame r g b).ls = s.frameLine r g b) := by
  have hl : s.afterSinkAnswer.frameLine r g b = s.frameLine r g b := rfl
  rcases s.sendFrame_cases r g b with ⟨_, e⟩ | ⟨_, _, e⟩ | ⟨_, n, _, e⟩ <;> rw [e]
  · rw [State.sendFrameSim_eq]
    simp
  · rw [State.sendFrameWith_ok]
    simp [hl]
  · rw [State.sendFrameWith_fail]
    simp [hl]

/-- A `SENDFRAME` does the same whatever the debug option and whatever was seen before it, and no debug text is seen of
it. -/
theorem State.sendFrame_seen (r g b : Nat) (d : Bool) (seen : List Event) (s : State) :
    ∃ more, (s.sendFrame r g b).events = s.events ++ more ∧ more.any Event.isDebugText = false ∧
      ({ s with debug := d, events := seen } : State).sendFrame r g b =
        { s.sendFrame r g b with debug := d, events := seen ++ more } := by
  by_cases hs : s.simulate = true
  · have h : ∀ u : State, u.simulate = true → u.sendFrame r g b = u.sendFrameSim r g b := fun u hu => by
      rw [State.sendFrame, if_pos hu]
    rw [h s hs, h { s with debug := d, events := seen } hs, State.sendFrameSim_eq, State.sendFrameSim_eq]
    exact ⟨_, rfl, rfl, rfl⟩
  · have h : ∀ u : State, u.simulate ≠ true →
        u.sendFrame r g b = u.afterSinkAnswer.sendFrameWith r g b u.sinkAnswer := fun u hu => by
      rw [State.sendFrame, if_neg hu]
    rw [h s hs, h { s with debug := d, events := seen } hs,
      show ({ s with debug := d, events := seen } : State).sinkAnswer = s.sinkAnswer from rfl]
    cases s.sinkAnswer with
    | ok =>
      rw [State.sendFrameWith_ok, State.sendFrameWith_ok]
      exact ⟨_, rfl, rfl, rfl⟩
    | fail n =>
      rw [State.sendFrameWith_fail, State.sendFrameWith_fail]
      simp only [List.append_assoc]
      exact ⟨_, rfl, rfl, rfl⟩

/-! Steps. -/

/-- With bytes issued that decode, a step is the operation in the state without its bytes. -/
theorem step_of_decode {s : State} {i : Instr} {rest : List Byte} (h : decode s.issue = .ok (i, rest)) :
    step s = exec i { s with issue := rest } := by
  have hf : fetch s = .ok (i, { s with issue := rest }) := by simp [fetch, h]
  unfold step
  cases hi : s.issue with
  | nil => simp [hi, decode] at h
  | cons c cs => simp [hf]

/-- If a step answers a next state, then either issued bytes decoded to an operation that gave it, or nothing was issued
and the machine's own next action gave it. -/
theorem step_eq_next {s t : State} (h : step s = .next t) :
    (∃ i rest, decode s.issue = .ok (i, rest) ∧ exec i { s with issue := rest } = .next t) ∨
      (s.issue = [] ∧ ∃ i u, nextAction s = .perform i u ∧ exec i u = .next t) ∨
      (s.issue = [] ∧ nextAction s = .silent t) := by
  unfold step at h
  split at h
  · rename_i hi
    split at h
    · rename_i i u ha
      exact .inr (.inl ⟨hi, i, u, ha, h⟩)
    · rename_i u ha
      cases h
      exact .inr (.inr ⟨hi, ha⟩)
    · cases h
  · split at h
    · rename_i i u hf
      unfold fetch at hf
      split at hf
      · rename_i j rest hd
        cases hf
        exact .inl ⟨_, rest, hd, h⟩
      · cases hf
    · cases h

/-- What the machine's own order can ask for: nothing after `EXIT`, `EXIT EXIT_FAIL` after a fatal exception, a step of
the sampler that was started, a stop request, or the render agent's next step. -/
theorem nextAction_cases (s : State) :
    (s.ended = true ∧ nextAction s = .stop .runEnded) ∨
      (s.ended = false ∧ s.fault.isSome = true ∧ nextAction s = .perform (.exit .fail) s) ∨
      (s.Ready ∧ s.samplerOn = true ∧ nextAction s = .perform .smploop s.afterNextAgent) ∨
      (s.Ready ∧ nextAction s = .perform .stopreq s.afterNextAgent) ∨
      (s.Ready ∧ nextAction s = renderAction s.afterNextAgent) := by
  rw [State.ready_iff]
  unfold nextAction
  cases he : s.ended <;> cases hf : s.fault.isSome <;> simp
  cases s.nextAgent <;> cases s.samplerOn <;> simp

end Sys2Proof.Machine
end

