-- ==== Sys2Proof/Laws/PerInstr.lean ====
section
/-! SUPPORT. The family `Opcode`: for every operation, its bytes begin with its code, and its code is the one that the
operation table gives its row. -/

namespace Sys2Proof.Laws

/-- The codes of spec/opcode_table.json in the order of its rows (30_encoding.md R70). -/
def tableCodes : List Byte :=
  [0x01, 0x02, 0x03, 0x04, 0x08, 0x09, 0x10, 0x11, 0x12, 0x20, 0x21, 0x22] ++
    [0x23, 0x24, 0x30, 0x31, 0x40, 0x41, 0x42, 0x43, 0x44, 0x45, 0x46, 0x47]

/-- No two rows share a code. -/
theorem tableCodes_distinct : tableCodes.Nodup := by decide

/-- The bytes of an operation begin with its code, which is a code of the table. -/
def Opcode.Statement (i : Instr) : Prop := (encode i).head? = some i.opcode ∧ tableCodes.contains i.opcode = true

theorem Opcode.setd (b : Bool) : Opcode.Statement (.setd b) := ⟨rfl, rfl⟩
theorem Opcode.clkh : Opcode.Statement .clkh := ⟨rfl, rfl⟩
theorem Opcode.clkl : Opcode.Statement .clkl := ⟨rfl, rfl⟩
theorem Opcode.emit : Opcode.Statement .emit := ⟨rfl, rfl⟩
theorem Opcode.encbit (b : Bool) : Opcode.Statement (.encbit b) := ⟨rfl, rfl⟩
theorem Opcode.encbyte (v : Nat) : Opcode.Statement (.encbyte v) := ⟨rfl, rfl⟩
theorem Opcode.encframe (r g b : Nat) : Opcode.Statement (.encframe r g b) := ⟨rfl, rfl⟩
theorem Opcode.sendframe (r g b : Nat) : Opcode.Statement (.sendframe r g b) := ⟨rfl, rfl⟩
theorem Opcode.decframe (bytes : List Byte) : Opcode.Statement (.decframe bytes) := ⟨rfl, rfl⟩
theorem Opcode.tickCpuload : Opcode.Statement .tickCpuload := ⟨rfl, rfl⟩
theorem Opcode.tickCycle : Opcode.Statement .tickCycle := ⟨rfl, rfl⟩
theorem Opcode.tickPulse : Opcode.Statement .tickPulse := ⟨rfl, rfl⟩
theorem Opcode.stepStatic : Opcode.Statement .stepStatic := ⟨rfl, rfl⟩
theorem Opcode.unpack (c : BitVec 24) : Opcode.Statement (.unpack c) := ⟨rfl, rfl⟩
theorem Opcode.sample : Opcode.Statement .sample := ⟨rfl, rfl⟩
theorem Opcode.smploop : Opcode.Statement .smploop := ⟨rfl, rfl⟩
theorem Opcode.config (record : ConfigRecord) : Opcode.Statement (.config record) := ⟨rfl, rfl⟩
theorem Opcode.init : Opcode.Statement .init := ⟨rfl, rfl⟩
theorem Opcode.runtick : Opcode.Statement .runtick := ⟨rfl, rfl⟩
theorem Opcode.write (bytes : List Byte) : Opcode.Statement (.write bytes) := ⟨rfl, rfl⟩
theorem Opcode.simwrite (bytes : List Byte) (t : Rgb) : Opcode.Statement (.simwrite bytes t) := ⟨rfl, rfl⟩
theorem Opcode.teardown : Opcode.Statement .teardown := ⟨rfl, rfl⟩
theorem Opcode.exit (code : ExitCode) : Opcode.Statement (.exit code) := ⟨rfl, rfl⟩
theorem Opcode.stopreq : Opcode.Statement .stopreq := ⟨rfl, rfl⟩

end Sys2Proof.Laws
end

