-- ==== Sys2Proof/Tests/Slice0.lean ====
section
/-! SUPPORT. Tests of the model: what WellFormed refuses; a word of every operation written out by hand; the vectors of
95_test_vectors.md and the examples of the rules, one step each; and for every statement with hypotheses a state and
operands that meet them. The bit positions are open, so vectors with concrete bytes are tests of the functions under the
illustration of 95_test_vectors.md, CLOCK bit 0 and DATA bit 1. -/

namespace Sys2Proof.Tests

open Sys2Proof.Machine

/-- The next state of an outcome. -/
def after : StepOutcome → Option State
  | .next t => some t
  | .fault _ => none
  | .refused _ => none

/-- The refusal of an outcome. -/
def refusal : StepOutcome → Option Refusal
  | .next _ => none
  | .fault _ => none
  | .refused r => some r

/-- The fault of an outcome. -/
def faulted : StepOutcome → Option Fault
  | .next _ => none
  | .fault f => some f
  | .refused _ => none

/-- The illustration of 95_test_vectors.md. -/
def pins : Pins := ⟨0, 1⟩

/-- The triplets of a string of data bits from the resting state under the illustration. -/
def triplets (bits : List Bool) : List Byte := bits.flatMap fun b => if b then [0x02, 0x03, 0x02] else [0x00, 0x01, 0x00]

/-- A looping run on the device sink. -/
def device : State := { State.reset with inited := true, phase := .looping }

/-- A looping run on the simulation sink. -/
def simulated : State := { State.reset with simulate := true, phase := .looping }

/-- A record with no option. -/
def emptyRecord : ConfigRecord := ⟨.absent, .absent, .absent, .absent, .absent, .absent, .absent, false⟩

/-! WellFormed. -/

theorem test_write_71_bytes_ill_formed : (Instr.write (List.replicate 71 0)).wellFormed = false := by decide
theorem test_write_73_bytes_ill_formed : (Instr.write (List.replicate 73 0)).wellFormed = false := by decide
theorem test_write_72_bytes_well_formed : (Instr.write (List.replicate 72 0)).wellFormed = true := by decide
theorem test_simwrite_71_bytes_ill_formed :
    (Instr.simwrite (List.replicate 71 0) ⟨0, 0, 0⟩).wellFormed = false := by decide
theorem test_simwrite_empty_ill_formed : (Instr.simwrite [] ⟨255, 128, 0⟩).wellFormed = false := by decide

/-! Words written out: the code of 30_encoding.md R70, then operands in the layout of log 16. -/

theorem test_decode_setd : decode [0x01, 0x01] = .ok (.setd true, []) := rfl
theorem test_decode_clkh : decode [0x02, 0x99] = .ok (.clkh, [0x99]) := rfl
theorem test_decode_clkl : decode [0x03] = .ok (.clkl, []) := rfl
theorem test_decode_emit : decode [0x04] = .ok (.emit, []) := rfl
theorem test_decode_encbit : decode [0x08, 0x00] = .ok (.encbit false, []) := rfl
theorem test_decode_encbyte : decode [0x09, 0xA5, 0x01] = .ok (.encbyte 0xA5, []) := rfl
theorem test_decode_encframe :
    decode [0x10, 0xAC, 0x02, 0x80, 0x02, 0xFF, 0x03] = .ok (.encframe 300 256 511, []) := rfl
theorem test_decode_sendframe :
    decode [0x11, 0xFF, 0x01, 0x80, 0x01, 0x00] = .ok (.sendframe 255 128 0, []) := rfl
theorem test_decode_decframe : decode [0x12, 0x03, 0x02, 0x03, 0x02] = .ok (.decframe [0x02, 0x03, 0x02], []) := rfl
theorem test_decode_tickCpuload : decode [0x20] = .ok (.tickCpuload, []) := rfl
theorem test_decode_tickCycle : decode [0x21] = .ok (.tickCycle, []) := rfl
theorem test_decode_tickPulse : decode [0x22] = .ok (.tickPulse, []) := rfl
theorem test_decode_stepStatic : decode [0x23] = .ok (.stepStatic, []) := rfl
theorem test_decode_unpack : decode [0x24, 0xFF, 0x80, 0x00] = .ok (.unpack 0xFF8000, []) := rfl
theorem test_decode_sample : decode [0x30] = .ok (.sample, []) := rfl
theorem test_decode_smploop : decode [0x31] = .ok (.smploop, []) := rfl
/-- `CONFIG mode=static, color=0xFF8000`, the other options absent. -/
theorem test_decode_config :
    decode [0x40, 0x04, 0x00, 0x01, 0x80, 0x80, 0xFE, 0x07, 0x00, 0x00, 0x00, 0x00, 0x00] =
      .ok (.config { emptyRecord with mode := .given .static, color := .given 0xFF8000 }, []) := rfl
theorem test_decode_init : decode [0x41] = .ok (.init, []) := rfl
theorem test_decode_runtick : decode [0x42] = .ok (.runtick, []) := rfl
theorem test_decode_write :
    decode (0x43 :: List.replicate 73 0x02) = .ok (.write (List.replicate 72 0x02), [0x02]) := rfl
theorem test_decode_simwrite :
    decode (0x44 :: (List.replicate 72 0x02 ++ [0xFF, 0x80, 0x00])) =
      .ok (.simwrite (List.replicate 72 0x02) ⟨0xFF, 0x80, 0x00⟩, []) := rfl
theorem test_decode_teardown : decode [0x45] = .ok (.teardown, []) := rfl
theorem test_decode_exit : decode [0x46, 0x01] = .ok (.exit .fail, []) := rfl
theorem test_decode_stopreq : decode [0x47] = .ok (.stopreq, []) := rfl

theorem test_decode_refuses_code_5 : decode [0x05] = .error (.noSuchOperation 0x05) := rfl
theorem test_decode_refuses_code_72 : decode [0x48] = .error (.noSuchOperation 0x48) := rfl
theorem test_decode_refuses_a_bit_2 : decode [0x01, 0x02] = .error (.badOperands 0x01) := rfl
theorem test_decode_refuses_a_long_zero : decode [0x09, 0x80, 0x00] = .error (.badOperands 0x09) := rfl
theorem test_decode_refuses_71_bytes : decode (0x43 :: List.replicate 71 0) = .error (.badOperands 0x43) := rfl
theorem test_encode_encbyte_300 : encode (.encbyte 300) = [0x09, 0xAC, 0x02] := by decide

/-! Words of spec/opcode_table.json, and what a step does with them first after reset. -/

theorem test_table_word_setd : decodeTableWord 8 0x01 = some (.setd false) := by decide
theorem test_table_word_config : decodeTableWord 8 0x40 = some (.config emptyRecord) := by decide
theorem test_table_word_outside : decodeTableWord 8 0x07 = none := by decide
/-- Every code but those that would write to a device not yet initialised has a next state right after reset. -/
theorem test_first_steps_run :
    ([0x01, 0x02, 0x03, 0x04, 0x08, 0x09, 0x10, 0x12, 0x20, 0x21, 0x22, 0x24, 0x30, 0x31, 0x40, 0x41, 0x44, 0x45, 0x46,
      0x47].all fun c => (after (step (State.reset.withFetchWord 8 c))).isSome) = true := by decide
theorem test_first_runtick_refused :
    refusal (step (State.reset.withFetchWord 8 0x42)) = some .runtickBeforeInit := by decide
theorem test_first_sendframe_refused :
    refusal (step (State.reset.withFetchWord 8 0x11)) = some .sendframeBeforeInit := by decide
theorem test_first_stepStatic_refused :
    refusal (step (State.reset.withFetchWord 8 0x23)) = some .stepStaticBeforeInit := by decide
theorem test_first_write_refused :
    refusal (step (State.reset.withFetchWord 8 0x43)) = some .writeBeforeInit := by decide

/-! LineEncoder: vectors V1 to V9. -/

theorem test_setd_V1 : setData pins true 0x00 = 0x02 := by decide
theorem test_setd_V1a : setData pins false 0x02 = 0x00 := by decide
theorem test_clkh_V1b : clockHigh pins 0x02 = 0x03 := by decide
theorem test_clkl_V1c : clockLow pins 0x03 = 0x02 := by decide
theorem test_emit_V1d :
    (after (exec .emit { State.reset with ls := 0x03, out := [0x02], pos := 1 })).map
      (fun t => (t.out, t.pos)) = some ([0x02, 0x03], 2) := by decide
theorem test_encbit_V2 : encBitFun pins false 0x00 = ([0x00, 0x01, 0x00], 0x00) := by decide
theorem test_encbit_V3b : encBitFun pins true 0x02 = ([0x02, 0x03, 0x02], 0x02) := by decide
theorem test_encbyte_V6 :
    encByteFun pins 0xA5 0x00 = (triplets [true, false, true, false, false, true, false, true], 0x02) := by decide
theorem test_encbyte_V9 :
    encByteFun pins 0x80 0x01 = ([0x03, 0x03, 0x02] ++ triplets (List.replicate 7 false), 0x00) := by decide
theorem test_masking_V8 : trunc8 300 = 0x2C := by decide

/-! FrameEncoder: vectors V10 to V17. -/

theorem test_encframe_V10 :
    encFrameFun pins ⟨255, 128, 0⟩ 0x00 =
      (triplets (List.replicate 9 true) ++ triplets (List.replicate 15 false), 0x00) := by decide
theorem test_encframe_V14 :
    (after (exec (.encframe 300 256 511) State.reset)).map (fun t => (t.frR, t.frG, t.frB, t.pos)) =
      some (44, 0, 255, 72) := by decide
theorem test_snapshot_25_of_V10 : snapshotOf pins ⟨255, 128, 0⟩ 25 = 0x03 := by decide
theorem test_snapshot_71_of_V10 : snapshotOf pins ⟨255, 128, 0⟩ 71 = 0x00 := by decide
theorem test_decframe_V15 : decFrameFun pins (encFrameFun pins ⟨18, 52, 86⟩ 0x00).1 = some ⟨18, 52, 86⟩ := by decide
theorem test_decframe_V16 :
    decFrameFun pins ((encFrameFun pins ⟨255, 128, 0⟩ 0x00).1.take 71) = some ⟨255, 128, 0⟩ ∧
      decFrameFun pins ((encFrameFun pins ⟨255, 128, 0⟩ 0x00).1.take 70) = none ∧
      decFrameFun pins [] = none := by decide
/-- V17, on a device that 70_reset_and_hazards.md R213 allows a frame to be sent to. -/
theorem test_sendframe_V17_ok :
    (after (exec (.sendframe 255 128 0) { device with inSinks := [.ok] })).map
      (fun t => (t.outStream.length, t.out, t.pos, t.fault)) = some (72, [], 0, none) := by decide
theorem test_sendframe_V17_fail :
    (after (exec (.sendframe 255 128 0) { device with inSinks := [.fail 5] })).map
      (fun t => (t.outStream.length, t.out, t.pos, t.fault.isSome)) = some (5, [], 0, true) := by decide

/-! AnimationEngine: vectors V18 to V29. -/

theorem test_tickCpuload_V18 :
    (after (exec .tickCpuload { State.reset with smoothedLoad := 50, renderedLoad := 47 })).map
      (fun t => (t.ret, t.renderedLoad, t.tickBeat, t.tickThrob)) = some (.frame ⟨122, 132, 0⟩, 48, 1, 1) := by decide
theorem test_tickCpuload_V20 :
    (after (exec .tickCpuload { State.reset with renderedLoad := 99 })).map (fun t => (t.ret, t.renderedLoad)) =
      some (.frame ⟨249, 5, 0⟩, 98) := by decide
theorem test_t_rate_V21 : [0, 25, 50, 70, 71, 75, 100].map tRate = [20, 15, 10, 6, 5, 5, 5] := by decide
/-- Tick 0 of V22: blue 8, level 223. -/
theorem test_wobbles_V22 : blueOf 0 = 8 ∧ levelOf 0 = 223 ∧ gradient 223 1 8 = ⟨2, 220, 8⟩ := by
  have h1 : blueOf 0 = 8 := by simpa [blueOf, beatAmp] using trunc_natCast 8
  have h2 : trunc (throbAmp * (0 + 1)) = 32 := by simpa [throbAmp] using trunc_natCast 32
  exact ⟨h1, by rw [levelOf, h2]; rfl, by decide⟩
/-- The example of 42_animation_engine.md R121. -/
theorem test_tickCycle_R121 : mixColor ⟨255, 0, 0⟩ ⟨0, 255, 0⟩ 64 = ⟨127, 127, 0⟩ := by decide
theorem test_tickCycle_V24 : mixColor ⟨255, 0, 0⟩ ⟨255, 255, 0⟩ 127 = ⟨255, 253, 0⟩ := by decide
theorem test_tickCycle_V25 :
    (after (exec .tickCycle { State.reset with ccIndex := 5, ccStep := 127 })).map (fun t => (t.ccIndex, t.ccStep)) =
      some (0, 0) := by decide
theorem test_tickPulse_V26 : pulseColor 0xFF8000 0 = ⟨127, 64, 0⟩ := by
  have h : ∀ n : Nat, pulseChannel n 0 = n / 2 := fun n => by
    have := trunc_div n 2
    rw [← this, pulseChannel]
    norm_num
    ring_nf
  simp only [pulseColor, h]
  decide
theorem test_tickPulse_counts :
    (after (exec .tickPulse { State.reset with tickPulse := 6 })).map State.tickPulse = some 7 := by decide
theorem test_unpack_V28 :
    (after (exec (.unpack 0x123456) State.reset)).map State.ret = some (.frame ⟨18, 52, 86⟩) := by decide
theorem test_stepStatic_V29_send1 :
    (after (exec .stepStatic { simulated with color := 0xFF8000 })).map
      (fun t => (t.stPhase, t.outStream.length, t.frR, t.frG, t.frB)) = some (.pause, 72, 255, 128, 0) := by decide
theorem test_stepStatic_V29_done : faulted (exec .stepStatic { State.reset with stPhase := .done }) = some .staticDone := by
  decide

/-! LoadSampler: vectors V30 to V33. -/

theorem test_sample_V30 :
    (after (exec .sample { State.reset with inMetrics := [⟨some ⟨100, 0, 50, 850⟩, some ⟨30, 0, 10, 60⟩⟩] })).map
      State.ret = some (.percent 40) := by decide
theorem test_sample_V31c_V32 :
    sampleResult ⟨some ⟨0, 0, 0, 0⟩, some ⟨2, 0, 0, 1⟩⟩ = .percent 66 ∧
      sampleResult ⟨some ⟨5, 5, 5, 5⟩, some ⟨0, 0, 0, 0⟩⟩ = .noValue := by decide
theorem test_smploop_V31 :
    (after (exec .smploop { State.reset with inMetrics := [⟨some ⟨0, 0, 0, 0⟩, some ⟨1, 1, 1, 0⟩⟩] })).map
      (fun t => (t.smoothedLoad, t.smpLast, t.smpHave)) = some (100, 100, true) := by decide
theorem test_smploop_V33 :
    (after (exec .smploop { State.reset with smoothedLoad := 40, inMetrics := [⟨some ⟨1, 2, 3, 4⟩, none⟩] })).map
      (fun t => (t.smoothedLoad, t.smpHave, t.fault)) = some (40, false, none) := by decide

/-! Scheduler, sink and host: vectors V40 to V49, programs P1, P5, P6. -/

theorem test_config_V42 :
    (after (exec (.config { emptyRecord with mode := .given .pulse, color := .given 0x0000FF, speed := .given 7 })
      State.reset)).map (fun t => (t.mode, t.color, t.speed, t.beat, t.phase)) =
      some (.pulse, 0x0000FF, 7, false, .awaitOpen) := by decide
theorem test_config_V41_speed_0 :
    (after (exec (.config { emptyRecord with speed := .given 0 }) State.reset)).map State.speed = some 1 := by decide
theorem test_config_V44_bad_mode :
    (after (exec (.config { emptyRecord with mode := .bad }) State.reset)).map
      (fun t => (t.fault.map causeClass, t.outStream, t.mode)) =
      some (some .configurationInvalid, [], .cpuLoad) := by decide
theorem test_decode_config_malformed_boolean :
    decode [0x40, 0x00, 0x00, 0x00, 0x03, 0x00, 0x00, 0x00, 0x00] = .ok (.config { emptyRecord with beat := .bad }, []) :=
  rfl
/-- 92_eei_decisions.md D22: "Anything else raises `ConfigurationInvalid`". -/
theorem test_config_D22_bad_boolean :
    (after (exec (.config { emptyRecord with simulate := .bad }) State.reset)).map
      (fun t => (t.fault, t.simulate, t.outStream)) = some (some (.configurationInvalid .simulate), false, []) := by
  have h : ∀ n, offendingOption n [.simulate] = .simulate := fun n => by simp [offendingOption, Nat.mod_one]
  simp only [exec, execConfig, State.configure, asRender]
  simp [illegalOptions, offending, suppliedBad, colorIllegal, emptyRecord, State.rejectConfig, h, after, State.reset,
    State.ended]
theorem test_init_ok :
    (after (exec .init { State.reset with phase := .awaitInit, inCalls := [true] })).map
      (fun t => (t.inited, t.phase, t.fault)) = some (true, .awaitSampler, none) := by decide
theorem test_init_V45 :
    (after (exec .init { State.reset with phase := .awaitInit, inCalls := [false] })).map
      (fun t => (t.inited, t.fault, t.outStream)) =
      some (false, some (.deviceUnavailable .enteringBitbang), []) := by decide
/-- The example of 44_scheduler_and_sink.md R163, on an initialised device. -/
theorem test_runtick_R163 :
    (after (exec .runtick { device with smoothedLoad := 50, inSinks := [.ok] })).map
      (fun t => (t.frR, t.frG, t.frB, t.outStream.length)) = some (2, 252, 0, 72) := by decide
theorem test_runtick_V48 :
    (after (exec .runtick { device with stop := true })).map (fun t => (t.outStream, t.phase, t.tickBeat)) =
      some ([], .awaitTeardown, 0) := by decide
theorem test_write_fail :
    (after (exec (.write (List.replicate 72 0x02)) { device with inSinks := [.fail 72] })).map
      (fun t => (t.outStream.length, t.ret, t.fault)) = some (72, .sinkFail, none) := by decide
theorem test_write_ok :
    (after (exec (.write (List.replicate 72 0x02)) { device with inSinks := [.ok] })).map
      (fun t => (t.outStream, t.ret)) = some (List.replicate 72 0x02, .sinkOk) := by decide
theorem test_simwrite :
    (after (exec (.simwrite (List.replicate 72 0x02) ⟨1, 2, 3⟩) simulated)).map
      (fun t => (t.outStream.length, t.events.length, t.ret)) = some (72, 1, .sinkOk) := by decide
theorem test_teardown :
    (after (exec .teardown { device with phase := .awaitTeardown })).map (fun t => (t.events, t.phase)) =
      some ([.teardown], .awaitExit) := by decide
theorem test_teardown_simulate :
    (after (exec .teardown simulated)).map (fun t => (t.events, t.phase)) = some ([], .awaitExit) := by decide
theorem test_exit_ok :
    (after (exec (.exit .ok) device)).map (fun t => (t.exitStatus, t.events)) = some (some 0, [.exit 0]) := by decide
theorem test_exit_ok_after_a_fault :
    faulted (exec (.exit .ok) { device with fault := some (.writeFailure []) }) = some .renderHalted := by decide
theorem test_stopreq_V49 :
    (after (execMany [.stopreq, .stopreq] device)).map State.stop = some true := by decide
theorem test_stopreq_after_a_fault :
    (after (exec .stopreq { device with fault := some (.writeFailure []) })).map State.stop = some false := by decide

/-! The machine's own order. -/

/-- Nothing issued and the render agent's turn: `CONFIG` with the record the host supplies. -/
theorem test_own_order_starts_with_config :
    (after (step { State.reset with
      inAgents := [.render], inRecords := [{ emptyRecord with simulate := .given true }] })).map
      (fun t => (t.simulate, t.phase)) = some (true, .awaitSampler) := by decide
theorem test_fatal_exception_leads_to_exit :
    (after (step { device with fault := some (.writeFailure []) })).map (fun t => t.exitStatus.isSome) = some true := by
  decide

/-! Memory operations: the load cell and the stream (there is no addressed memory). -/

theorem test_load_cell_read_after_write (p : Nat) (s : State) : (s.writeLoadCell p).readLoadCell = p := rfl
theorem test_palette_index_is_taken_mod_6 : readPalette 6 = readPalette 0 := rfl

/-! For every statement with hypotheses, states and operands that meet them together, one for each of its clauses. -/

/-- The line state is at rest at reset. -/
theorem resting_reset : resting linePins State.reset.ls = true := by
  rw [resting, show State.reset.ls = 0 from rfl, clockOf_zero, reservedOf_zero]
  rfl

/-- A pulse run under `SIMULATE`, in the loop, with nothing issued; the render agent moves next. -/
def running : State := { simulated with mode := .pulse, inAgents := [.render] }

/-- A pulse run on the device, in the loop, whose sink will take the next frame. -/
def runningOnTheDevice : State := { device with mode := .pulse, inAgents := [.render], inSinks := [.ok] }

/-- A run that waits for the device to be initialised, which will answer. -/
def aboutToInit : State := { State.reset with phase := .awaitInit, inAgents := [.render], inCalls := [true] }

/-- The first run after a stop, before and after `EXIT 0`. -/
def aboutToEnd : State := { running with stop := true, phase := .awaitExit }
def finished : State := { aboutToEnd with exitStatus := some 0, events := [.exit 0] }

/-- The run on the device after a stop and its `TEARDOWN`. -/
def aboutToEndOnTheDevice : State :=
  { runningOnTheDevice with stop := true, phase := .awaitExit, events := [.teardown] }

/-- The run on the device after a failed write. -/
def aboutToFail : State := { runningOnTheDevice with fault := some (.writeFailure []) }

/-- The invariant of every state in a state whose registers are those of reset but for what it does not speak of. -/
theorem inv_of_reset {s : State} (h : (s.ls, s.pos, s.out, s.speed, s.smoothedLoad) = (0, 0, [], 100, 0))
    (h' : (s.renderedLoad, s.smpLast, s.smpHave, s.ccIndex, s.ccStep, s.tickBeat, s.tickThrob) =
      (0, 0, false, 0, 0, 0, 0)) : s.Inv := by
  simp only [Prod.mk.injEq] at h h'
  constructor
  · rw [h.1]
    exact reservedOf_zero linePins
  all_goals simp [h, h']

theorem running_inv : running.Inv := inv_of_reset rfl rfl

theorem running_runInv : running.RunInv :=
  ⟨running_inv, rfl, clockOf_zero linePins, rfl, fun _ => ⟨0, rfl⟩, by decide, by decide, by decide, by decide, by decide,
    by decide, by decide, by decide, by decide, by decide, by decide, nofun, nofun, nofun, by decide, by decide, nofun⟩

theorem runningOnTheDevice_runInv : runningOnTheDevice.RunInv :=
  ⟨inv_of_reset rfl rfl, rfl, clockOf_zero linePins, rfl, fun _ => ⟨0, rfl⟩, by decide, by decide, by decide, by decide,
    by decide, by decide, by decide, by decide, by decide, by decide, by decide, nofun, nofun, nofun, by decide, by decide,
    nofun⟩

theorem aboutToInit_runInv : aboutToInit.RunInv :=
  ⟨inv_of_reset rfl rfl, rfl, clockOf_zero linePins, rfl, fun _ => ⟨0, rfl⟩, by decide, by decide, by decide, by decide,
    by decide, by decide, by decide, by decide, by decide, by decide, by decide, nofun, nofun, nofun, by decide, by decide,
    nofun⟩

theorem aboutToEnd_runInv : aboutToEnd.RunInv :=
  ⟨inv_of_reset rfl rfl, rfl, clockOf_zero linePins, rfl, fun _ => ⟨0, rfl⟩, by decide, by decide, by decide, by decide,
    by decide, by decide, by decide, by decide, by decide, by decide, by decide, nofun, nofun, nofun, by decide, by decide,
    nofun⟩

theorem aboutToEndOnTheDevice_runInv : aboutToEndOnTheDevice.RunInv :=
  ⟨inv_of_reset rfl rfl, rfl, clockOf_zero linePins, rfl, fun _ => ⟨0, rfl⟩, by decide, by decide, by decide, by decide,
    by decide, by decide, by decide, by decide, by decide, by decide, by decide, nofun, nofun, nofun, by decide, by decide,
    nofun⟩

theorem aboutToFail_runInv : aboutToFail.RunInv :=
  ⟨inv_of_reset rfl rfl, rfl, clockOf_zero linePins, rfl, fun _ => ⟨0, rfl⟩, by decide, by decide, by decide, by decide,
    by decide, by decide, by decide, by decide, by decide, by decide, by decide, nofun, nofun, fun _ _ => ⟨rfl, rfl⟩,
    by decide, by decide, nofun⟩

theorem finished_runInv : finished.RunInv :=
  ⟨inv_of_reset rfl rfl, rfl, clockOf_zero linePins, rfl, fun _ => ⟨0, rfl⟩, by decide, by decide, by decide, by decide,
    by decide, by decide, by decide, by decide, by decide, by decide, by decide, nofun, nofun, nofun, by decide, by decide,
    fun _ h => .inl ⟨(Option.some.inj h).symm, rfl, rfl⟩⟩

theorem ready_reset : State.reset.Ready := ⟨rfl, rfl⟩
theorem ready_device : device.Ready := ⟨rfl, rfl⟩
theorem ready_simulated : simulated.Ready := ⟨rfl, rfl⟩

theorem witness_DecodeOfEncode : (Instr.simwrite (List.replicate 72 0xFF) ⟨1, 2, 3⟩).wellFormed = true := by decide
theorem witness_EncodeOfDecode : decode [0x09, 0xFF, 0x7F, 0x01] = .ok (.encbyte 16383, [0x01]) := rfl
theorem witness_StepRunsIssuedOperation :
    decode { device with issue := [0x08, 0x01, 0x47] }.issue = .ok (.encbit true, [0x47]) := rfl

/-- The clauses of `OwnOrderOfARun`: ended; after a fatal exception; the sampler's, the host's and the render agent's
turn, and a turn of a sampler that was not started. -/
theorem witness_OwnOrderOfARun :
    (finished.issue = [] ∧ finished.exitStatus ≠ none) ∧
    (let s := { device with fault := some (.writeFailure []) };
      s.issue = [] ∧ s.exitStatus = none ∧ s.fault ≠ none) ∧
    (let s := { device with samplerOn := true, inAgents := [.sampler] };
      s.issue = [] ∧ s.Ready ∧ s.nextAgent = .sampler ∧ s.samplerOn = true) ∧
    (let s := { device with inAgents := [.host] };
      s.issue = [] ∧ s.Ready ∧ s.nextAgent = .host) ∧
    (let s := { device with inAgents := [.sampler] };
      s.issue = [] ∧ s.Ready ∧ s.nextAgent = .sampler ∧ s.samplerOn = false) ∧
    (∀ p, let s := { State.reset with phase := p, inAgents := [.render] }
      s.issue = [] ∧ s.Ready ∧ s.nextAgent = .render ∧ s.phase = p) :=
  ⟨⟨rfl, by decide⟩, ⟨rfl, rfl, by decide⟩, ⟨rfl, ready_device, rfl, rfl⟩, ⟨rfl, ready_device, rfl⟩,
    ⟨rfl, ready_device, rfl, rfl⟩, fun _ => ⟨rfl, ready_reset, rfl, rfl⟩⟩
/-- The two clauses of the opening of the device. -/
theorem witness_OwnOrderOfARun_opening :
    (let s := { State.reset with phase := .awaitOpen, inAgents := [.render], inCalls := [true] };
      s.afterNextAgent.deviceAnswer = true) ∧
    (let s := { State.reset with phase := .awaitOpen, inAgents := [.render], inCalls := [false] };
      s.afterNextAgent.deviceAnswer = false) := ⟨rfl, rfl⟩

theorem witness_SetdWritesDataOnly : State.reset.Ready := ready_reset
theorem witness_ClockOperationsWriteClockOnly : State.reset.Ready := ready_reset
theorem witness_EmitAppendsLineState : { State.reset with out := List.replicate 72 0, pos := 72 }.Ready := ⟨rfl, rfl⟩
theorem witness_EncbitAppendsTriplet : State.reset.Ready ∧ resting linePins State.reset.ls = true :=
  ⟨ready_reset, resting_reset⟩
/-- From the resting state, and outside it with CLOCK high. -/
theorem witness_EncbyteSendsEachBit :
    State.reset.Ready ∧ { State.reset with ls := clockHigh linePins 0 }.Ready ∧
      clockOf linePins (clockHigh linePins 0) = true := ⟨ready_reset, ⟨rfl, rfl⟩, clockOf_clockHigh _ _⟩
theorem witness_OneWireChangesAtATime :
    State.reset.Ready ∧ resting linePins State.reset.ls = true ∧ State.reset.out = [] ∧
      Instr.encbyte 255 ∈ [Instr.encbyte 255, Instr.encframe 255 128 0] ∧
      Instr.encframe 255 128 0 ∈ [Instr.encbyte 255, Instr.encframe 255 128 0] :=
  ⟨ready_reset, resting_reset, rfl, by simp, by simp⟩
theorem witness_OperandsAreMasked : State.reset.Ready := ready_reset
theorem witness_EncframeFollowsTheFrameFormula :
    State.reset.Ready ∧ { State.reset with ls := 0xFF }.Ready ∧ clockOf linePins 0xFF = true := by
  refine ⟨ready_reset, ⟨rfl, rfl⟩, ?_⟩
  have h : ∀ i : Fin 8, (0xFF : Byte).getLsbD i = true := by decide
  exact h _
theorem witness_FrameRoundTrip :
    State.reset.Ready ∧ resting linePins State.reset.ls = true ∧
      ∃ t, exec (.encframe 1 2 3) State.reset = .next t ∧ exec (.encframe 1 2 3) State.reset = .next t :=
  ⟨ready_reset, resting_reset, _, rfl, rfl⟩
/-- Two states that differ in DATA, the mode, the sink and the debug option. -/
theorem witness_EncframeDependsOnClockAndReservedOnly :
    let s' := { State.reset with
      ls := setData linePins true 0, mode := .pulse, simulate := true, debug := true };
    State.reset.Ready ∧ s'.Ready ∧ clockOf linePins State.reset.ls = clockOf linePins s'.ls ∧
      reservedOf linePins State.reset.ls = reservedOf linePins s'.ls :=
  ⟨ready_reset, ⟨rfl, rfl⟩, (clockOf_setData linePins_distinct true 0).symm, (reservedOf_setData linePins true 0).symm⟩
theorem witness_SendframeUnderSimulate : simulated.Ready ∧ simulated.simulate = true := ⟨ready_simulated, rfl⟩
theorem witness_SendframeTakenByTheDevice :
    let s := { device with inSinks := [.ok] };
    s.Ready ∧ s.simulate = false ∧ s.sinkAnswer = .ok ∧ s.inited = true := ⟨ready_device, rfl, rfl, rfl⟩
/-- A failure after none, and after all, of the 72 bytes. -/
theorem witness_SendframeRefusedByTheDevice :
    ∀ n : Fin 73, let s := { device with inSinks := [.fail n] };
    s.Ready ∧ s.simulate = false ∧ s.inited = true ∧ s.sinkAnswer = .fail n ∧ s.issue = [] :=
  fun _ => ⟨ready_device, rfl, rfl, rfl, rfl⟩
theorem witness_UnpackSplitsTheColor : State.reset.Ready := ready_reset
theorem witness_TickCpuloadResult : State.reset.Ready := ready_reset
/-- Upward, with BEAT off, and downward. -/
theorem witness_CpuloadConverges :
    (let s := { State.reset with smoothedLoad := 50 }; s.Ready ∧ s.renderedLoad ≤ s.smoothedLoad ∧ s.beat = false) ∧
    (let s := { State.reset with renderedLoad := 100 }; s.Ready ∧ ¬ s.renderedLoad ≤ s.smoothedLoad) :=
  ⟨⟨ready_reset, by decide, rfl⟩, ready_reset, by decide⟩
/-- Where the clauses of `t_rate` meet, and a state without THROB. -/
theorem witness_CpuloadRanges : tRate 70 = (100 - 70) / 5 ∧ tRate 71 = 5 ∧ State.reset.throb = false := by decide
theorem witness_CpuloadCornerCases :
    let s := { State.reset with beat := true, throb := true };
    s.tickBeat = 0 ∧ s.tickThrob = 0 ∧ s.beat = true ∧ s.throb = true ∧ (100 : Nat) ≤ 100 := by decide
theorem witness_ComposedChannelsFitAByte :
    running.Ready ∧ running.Inv ∧
      Instr.unpack 0xFF8000 ∈ [Instr.tickCpuload, .tickCycle, .tickPulse, .unpack 0xFF8000] :=
  ⟨⟨rfl, rfl⟩, running_inv, by simp⟩
theorem witness_TickCycleResult : { State.reset with ccIndex := 5, ccStep := 127 }.Ready := ⟨rfl, rfl⟩
theorem witness_CycleMeetsThePaletteEntries : mixChannel 255 255 128 = 255 := by decide
theorem witness_CyclePeriod :
    let s := { State.reset with ccIndex := 5 };
    s.Ready ∧ s.ccIndex < 6 ∧ s.ccStep = 0 ∧ ∃ t, execMany (List.replicate 1 .tickCycle) s = .next t :=
  ⟨ready_reset, by decide, rfl, _, rfl⟩
theorem witness_TickPulseResult : State.reset.Ready ∧ State.reset.tickPulse = 0 := ⟨ready_reset, rfl⟩
/-- Each phase; a send that is taken and one that fails. -/
theorem witness_StepStaticSends :
    (∀ p, { device with stPhase := p }.Ready ∧ { device with stPhase := p }.stPhase = p ∧ device.inited = true ∧
      { simulated with stPhase := p }.Ready ∧ simulated.simulate = true) ∧
    (∃ t, exec (.sendframe 255 128 0) { simulated with color := 0xFF8000 } = .next t ∧ t.fault = none) ∧
    (∃ t, exec (.sendframe 255 128 0) { device with color := 0xFF8000, inSinks := [.fail 0] } = .next t ∧
      t.fault ≠ none) :=
  ⟨fun _ => ⟨ready_device, rfl, rfl, ready_simulated, rfl⟩, ⟨_, rfl, rfl⟩, _, rfl, by
    rw [State.sendFrame, if_neg (by decide)]
    exact fun h => by cases h⟩
theorem witness_StaticSendsExactlyTwice :
    (let s := { simulated with mode := .static };
      s.Ready ∧ s.mode = .static ∧ s.stPhase = .send1 ∧ resting linePins s.ls = true ∧ s.simulate = true) ∧
    (let s := { device with mode := .static, inSinks := [.ok, .ok, .fail 3] };
      s.Ready ∧ s.mode = .static ∧ s.stPhase = .send1 ∧ resting linePins s.ls = true ∧ s.inited = true ∧
      s.sinkAnswer = .ok ∧ ∀ u, execMany [.runtick, .runtick] s = .next u → u.sinkAnswer = .ok) := by
  refine ⟨⟨ready_simulated, rfl, rfl, resting_reset, rfl⟩, ready_device, rfl, rfl, resting_reset, rfl, rfl, ?_⟩
  intro u h
  have h0 : (after (execMany [.runtick, .runtick]
      { device with mode := .static, inSinks := [.ok, .ok, .fail 3] })).map State.sinkAnswer = some .ok := by decide
  rw [h] at h0
  exact Option.some.inj h0
/-- A measured load, and a failure of either read. -/
theorem witness_SampleMeasuresTheLoad :
    State.reset.exitStatus = none ∧
    (let s := { State.reset with inMetrics := [⟨some ⟨0, 0, 0, 0⟩, some ⟨1, 1, 1, 0⟩⟩] };
      s.exitStatus = none ∧ s.metricAnswer = ⟨some ⟨0, 0, 0, 0⟩, some ⟨1, 1, 1, 0⟩⟩) ∧
    (let s := { State.reset with inMetrics := [⟨none, some ⟨1, 1, 1, 0⟩⟩] };
      s.exitStatus = none ∧ s.metricAnswer.first = none) ∧
    (let s := { State.reset with inMetrics := [⟨some ⟨0, 0, 0, 0⟩, none⟩] };
      s.exitStatus = none ∧ s.metricAnswer.growth = none) := ⟨rfl, ⟨rfl, rfl⟩, ⟨rfl, rfl⟩, rfl, rfl⟩
/-- A percentage, and no value. -/
theorem witness_SmploopKeepsOrHolds :
    (let s := { State.reset with inMetrics := [⟨some ⟨0, 0, 0, 0⟩, some ⟨1, 1, 1, 0⟩⟩] };
      s.exitStatus = none ∧ sampleResult s.metricAnswer = .percent 100) ∧
    (let s := { State.reset with inMetrics := [⟨none, none⟩] };
      s.exitStatus = none ∧ ∀ p, sampleResult s.metricAnswer ≠ .percent p) :=
  ⟨⟨rfl, rfl⟩, rfl, fun _ => nofun⟩
/-- Every option absent; every option given, at the ends of their ranges. -/
theorem witness_ConfigLatchesALegalRecord :
    (State.reset.Ready ∧ State.reset.phase = .awaitConfig ∧ emptyRecord.mode ≠ .bad ∧ emptyRecord.speed ≠ .bad ∧
      emptyRecord.color ≠ .bad ∧ (∀ n, emptyRecord.color = .given n → n < 2 ^ 24) ∧ emptyRecord.beat ≠ .bad ∧
      emptyRecord.throb ≠ .bad ∧ emptyRecord.simulate ≠ .bad ∧ emptyRecord.debug ≠ .bad ∧
      emptyRecord.unknownOption = false) ∧
    (let c : ConfigRecord := ⟨.given .static, .given 0, .given 0xFFFFFF, .given true, .given true, .given true,
        .given true, false⟩;
      c.mode ≠ .bad ∧ c.speed ≠ .bad ∧ c.color ≠ .bad ∧ (∀ n, c.color = .given n → n < 2 ^ 24) ∧ c.beat ≠ .bad ∧
      c.throb ≠ .bad ∧ c.simulate ≠ .bad ∧ c.debug ≠ .bad ∧ c.unknownOption = false) := by
  refine ⟨⟨ready_reset, rfl, nofun, nofun, nofun, nofun, nofun, nofun, nofun, nofun, rfl⟩, nofun, nofun, nofun, ?_,
    nofun, nofun, nofun, nofun, rfl⟩
  intro n h
  cases h
  decide
/-- Each way a record can be illegal; the smallest colour that does not fit. -/
theorem witness_ConfigRefusesAnIllegalRecord :
    State.reset.Ready ∧ State.reset.phase = .awaitConfig ∧ State.reset.issue = [] ∧
    { emptyRecord with mode := .bad }.mode = .bad ∧ { emptyRecord with speed := .bad }.speed = .bad ∧
    { emptyRecord with color := .bad }.color = .bad ∧
    (∃ n, { emptyRecord with color := .given (2 ^ 24) }.color = .given n ∧ 2 ^ 24 ≤ n) ∧
    { emptyRecord with beat := .bad }.beat = .bad ∧ { emptyRecord with throb := .bad }.throb = .bad ∧
    { emptyRecord with simulate := .bad }.simulate = .bad ∧ { emptyRecord with debug := .bad }.debug = .bad ∧
    { emptyRecord with unknownOption := true }.unknownOption = true :=
  ⟨ready_reset, rfl, rfl, rfl, rfl, rfl, ⟨2 ^ 24, rfl, Nat.le_refl _⟩, rfl, rfl, rfl, rfl, rfl⟩
theorem witness_InitEntersBitbangMode :
    (∀ a, let s := { State.reset with phase := .awaitInit, inCalls := [a] }
      s.Ready ∧ s.simulate = false ∧ s.inited = false ∧ s.deviceAnswer = a) ∧
    (simulated.Ready ∧ simulated.simulate = true) := ⟨fun _ => ⟨ready_reset, rfl, rfl, rfl⟩, ready_simulated, rfl⟩
/-- Each looping mode, under `SIMULATE` and on an initialised device; each phase of the static mode on either; and a
failed send of it, with the machine's place in the run as in the loop. -/
theorem witness_RuntickSendsTheFrameOfTheMode :
    (∀ p ≠ StPhase.done,
      (let s := { simulated with mode := .static, stPhase := p };
        s.Ready ∧ s.mode = .static ∧ s.stPhase ≠ .done ∧ s.simulate = true) ∧
      (let s := { device with mode := .static, stPhase := p };
        s.Ready ∧ s.mode = .static ∧ s.stPhase ≠ .done ∧ s.inited = true ∧ s.simulate = false ∧
          s.phase ≠ .awaitExit)) ∧
    (let s := { device with mode := .static, inSinks := [.fail 0] };
      s.stPhase = .send1 ∧ (after (exec .stepStatic s)).map (fun u => u.fault.isSome) = some true) ∧
    ∀ m ∈ [Mode.cpuLoad, .colorCycle, .pulse],
      (let s := { simulated with mode := m };
        s.Ready ∧ s.mode ≠ .static ∧ s.stop = false ∧ s.debug = false ∧ s.simulate = true) ∧
      (let s := { device with mode := m };
        s.Ready ∧ s.mode ≠ .static ∧ s.stop = false ∧ s.debug = false ∧ s.inited = true) := by
  refine ⟨fun p hp => ⟨⟨ready_simulated, rfl, hp, rfl⟩, ready_device, rfl, hp, rfl, rfl, nofun⟩, ⟨rfl, by decide⟩, ?_⟩
  intro m hm
  refine ⟨⟨ready_simulated, ?_, rfl, rfl, rfl⟩, ready_device, ?_, rfl, rfl, rfl⟩ <;>
    (intro h; subst h; simp at hm)
theorem witness_RuntickLeavesTheLoop :
    (let s := { simulated with stop := true }; s.Ready ∧ s.mode ≠ .static ∧ s.stop = true ∧ s.simulate = true) ∧
    (let s := { device with mode := .static, stPhase := .done };
      s.Ready ∧ s.mode = .static ∧ s.stPhase = .done ∧ s.simulate = false ∧ s.phase ≠ .awaitExit) :=
  ⟨⟨ready_simulated, nofun, rfl, rfl⟩, ready_device, rfl, rfl, rfl, nofun⟩
theorem witness_StaticModeIgnoresTheStop :
    ∃ t, { simulated with mode := .static, stPhase := .pause }.mode = .static ∧
      exec .runtick { simulated with mode := .static, stPhase := .pause } = .next t := ⟨_, rfl, rfl⟩
theorem witness_DebugChangesOnlyTheText :
    (∀ c, Instr.runtick ≠ .config c) ∧ ∃ t, exec .runtick simulated = .next t := ⟨by simp, _, rfl⟩
/-- A tick that is seen with its debug text. -/
theorem witness_DebugChangesOnlyTheText_text :
    (after (exec .runtick { simulated with debug := true })).map (fun t => t.events.any Event.isDebugText) =
      some true := by decide
/-- A success, and a failure after none and after all of the bytes. -/
theorem witness_WriteHandsOverToTheDevice :
    ∀ a, let s := { device with inSinks := [a] };
    s.Ready ∧ s.simulate = false ∧ s.inited = true ∧ s.sinkAnswer = a ∧
      (List.replicate 72 (0x02 : Byte)).getLast? = some 0x02 := fun _ => ⟨ready_device, rfl, rfl, rfl, rfl⟩
theorem witness_SimwriteAlwaysSucceeds : simulated.Ready := ready_simulated
theorem witness_TeardownReleasesTheDevice :
    (simulated.Ready ∧ simulated.simulate = true) ∧ device.Ready ∧ device.simulate = false :=
  ⟨⟨ready_simulated, rfl⟩, ready_device, rfl⟩
theorem witness_ExitEndsTheRun :
    (device.exitStatus = none ∧ device.fault = none ∧ device.issue = []) ∧
    (let s := { device with fault := some (.writeFailure []) };
      s.exitStatus = none ∧ s.fault ≠ none ∧ ExitCode.fail = .fail) ∧
    (∀ bytes, Instr.setd true ≠ .decframe bytes) := ⟨⟨rfl, rfl, rfl⟩, ⟨rfl, nofun, rfl⟩, nofun⟩
theorem witness_StopreqSetsStopOnly :
    (device.exitStatus = none ∧ device.fault = none) ∧
    (let s := { device with fault := some (.writeFailure []) }; s.exitStatus = none ∧ s.fault ≠ none) :=
  ⟨⟨rfl, rfl⟩, rfl, nofun⟩
/-- A looping tick and both sends of the static mode on a device that was not initialised; `WRITE` under `SIMULATE`; a
second `INIT`; a second `CONFIG`. -/
theorem witness_UndescribedUsesStopByName :
    (State.reset.Ready ∧ State.reset.simulate = false ∧ State.reset.inited = false ∧ State.reset.mode ≠ .static ∧
      State.reset.stop = false) ∧
    (∀ p, let s := { State.reset with mode := .static, stPhase := p }
      s.Ready ∧ s.simulate = false ∧ s.inited = false ∧ s.mode = .static ∧ s.stPhase = p) ∧
    simulated.simulate = true ∧ device.inited = true ∧ device.phase ≠ .awaitConfig :=
  ⟨⟨ready_reset, rfl, rfl, nofun, rfl⟩, fun _ => ⟨ready_reset, rfl, rfl, rfl, rfl⟩, rfl, rfl, nofun⟩
theorem witness_FatalExceptionIsFinal :
    ∃ t, { device with fault := some (.writeFailure []) }.fault = some (.writeFailure []) ∧
      exec (.exit .fail) { device with fault := some (.writeFailure []) } = .next t := ⟨_, rfl, rfl⟩
/-- Each of the three fatal exceptions is raised. -/
theorem witness_WhatRaisesWhat :
    (∃ t, exec .init { State.reset with inCalls := [false] } = .next t ∧
      t.fault = some (.deviceUnavailable .enteringBitbang)) ∧
    (∃ t c, exec (.sendframe 1 2 3) { device with inSinks := [.fail 7] } = .next t ∧ t.fault = some c) ∧
    (∃ t c, exec (.config { emptyRecord with mode := .bad }) State.reset = .next t ∧ t.fault = some c) :=
  ⟨⟨_, rfl, rfl⟩, ⟨_, _, rfl, rfl⟩, _, _, rfl, rfl⟩
/-- Three operations that meet the conditions of all the clauses between them; and one under `SIMULATE`, of the codes
that may write the wires. -/
theorem witness_OwnershipOfState :
    (∃ t, exec .stopreq State.reset = .next t ∧ Instr.stopreq.opcode ∉ [0x01, 0x02, 0x03, 0x08, 0x09, 0x10, 0x11, 0x23,
      0x42] ∧ Instr.stopreq.opcode ∉ [0x10, 0x11, 0x23, 0x42] ∧
      Instr.stopreq.opcode ∉ [0x04, 0x08, 0x09, 0x10, 0x11, 0x23, 0x42] ∧
      Instr.stopreq.opcode ∉ [0x11, 0x23, 0x42, 0x43, 0x44] ∧
      Instr.stopreq.opcode ∉ [0x11, 0x23, 0x41, 0x42, 0x43, 0x45] ∧
      Instr.stopreq.opcode ∉ [0x11, 0x23, 0x40, 0x41, 0x42]) ∧
    (∃ t, exec .clkh State.reset = .next t ∧ Instr.clkh ≠ .stopreq) ∧
    (∃ t, exec .runtick simulated = .next t ∧ simulated.simulate = true ∧ ¬(Instr.runtick = .runtick ∧
      simulated.mode = .static)) :=
  ⟨⟨_, rfl, by decide⟩, ⟨_, rfl, nofun⟩, _, rfl, rfl, nofun⟩
theorem witness_OutstreamGrowsByWholeFrames :
    ∃ t, exec .runtick simulated = .next t ∧ t.fault = none := ⟨_, rfl, rfl⟩
theorem witness_OnlyCpuloadReadsTheLoadCell :
    ¬(Instr.runtick = .runtick ∧ { simulated with mode := .pulse }.mode = .cpuLoad) ∧
      ∃ t, exec .runtick { simulated with mode := .pulse } = .next t := ⟨nofun, _, rfl⟩
theorem witness_StepKeepsTheInvariant : running.Inv ∧ ∃ t, step running = .next t := ⟨running_inv, _, rfl⟩
theorem witness_OwnOrderKeepsTheRunInvariant : running.RunInv ∧ ∃ t, step running = .next t :=
  ⟨running_runInv, _, rfl⟩
theorem witness_OwnOrderAlwaysHasAStep :
    (running.RunInv ∧ running.exitStatus = none) ∧ finished.RunInv ∧ finished.exitStatus ≠ none :=
  ⟨⟨running_runInv, rfl⟩, finished_runInv, nofun⟩
/-- A run that is about to end well: under `SIMULATE`, and on the device; and one that is about to end badly. -/
theorem witness_EndedWell :
    (aboutToEnd.RunInv ∧ aboutToEnd.exitStatus = none ∧
      (after (step aboutToEnd)).map (fun t => (t.exitStatus, t.simulate)) = some (some 0, true)) ∧
    (aboutToEndOnTheDevice.RunInv ∧ aboutToEndOnTheDevice.exitStatus = none ∧
      (after (step aboutToEndOnTheDevice)).map (fun t => (t.exitStatus, t.simulate)) = some (some 0, false)) ∧
    (aboutToFail.RunInv ∧ aboutToFail.exitStatus = none ∧
      (after (step aboutToFail)).map State.exitStatus = some (some exitFail) ∧ exitFail ≠ 0) :=
  ⟨⟨aboutToEnd_runInv, rfl, by decide⟩, ⟨aboutToEndOnTheDevice_runInv, rfl, by decide⟩, aboutToFail_runInv, rfl, rfl,
    exitFail_ne_zero⟩
/-- A tick that sends, under `SIMULATE` and on the device, and the step that initialises the device. -/
theorem witness_NoFrameBeforeInit :
    (running.RunInv ∧ (after (step running)).map (fun t => t.outStream.length) = some 72) ∧
    (runningOnTheDevice.RunInv ∧ (after (step runningOnTheDevice)).map (fun t => t.outStream.length) = some 72) ∧
    (aboutToInit.RunInv ∧ aboutToInit.inited = false ∧ (after (step aboutToInit)).map State.inited = some true) :=
  ⟨⟨running_runInv, by decide⟩, ⟨runningOnTheDevice_runInv, by decide⟩, aboutToInit_runInv, rfl, by decide⟩

end Sys2Proof.Tests
end

/-! SUPPORT. The invariant of every state (Safety.lean `Inv`), operation by operation: each named update keeps it, so each
meaning made of them does, so `exec` does, so a step does. -/

namespace Sys2Proof.Machine

/-! The encoder. -/

theorem State.Inv.setd {s : State} (h : s.Inv) (b : Bool) : (s.setd b).Inv :=
  { h with reserved := (reservedOf_setData linePins b s.ls).trans h.reserved }

theorem State.Inv.clkh {s : State} (h : s.Inv) : s.clkh.Inv :=
  { h with reserved := (reservedOf_clockHigh linePins s.ls).trans h.reserved }

theorem State.Inv.clkl {s : State} (h : s.Inv) : s.clkl.Inv :=
  { h with reserved := (reservedOf_clockLow linePins s.ls).trans h.reserved }

theorem State.Inv.emit {s : State} (h : s.Inv) : s.emit.Inv :=
  { h with position := by simp [h.position] }

theorem State.Inv.encBit {s : State} (h : s.Inv) (b : Bool) : (s.encBit b).Inv :=
  (h.setd b).emit.clkh.emit.clkl.emit

theorem State.Inv.encBits {s : State} (h : s.Inv) (bits : List Bool) : (s.encBits bits).Inv := by
  induction bits generalizing s with
  | nil => exact h
  | cons b bs ih => exact ih (h.encBit b)

theorem State.Inv.encByte {s : State} (h : s.Inv) (v : Byte) : (s.encByte v).Inv := h.encBits (bitsSent v)

theorem State.Inv.latchFrame {s : State} (h : s.Inv) (r g b : Nat) : (s.latchFrame r g b).Inv := { h with }

theorem State.Inv.clearOut {s : State} (h : s.Inv) : s.clearOut.Inv := { h with position := rfl }

theorem State.Inv.encFrame {s : State} (h : s.Inv) (r g b : Nat) : (s.encFrame r g b).Inv :=
  (((h.latchFrame r g b).clearOut.encByte _).encByte _).encByte _

/-! The sink, and taking an exception. -/

theorem State.Inv.returning {s : State} (h : s.Inv) (x : Result) : (s.returning x).Inv := { h with }

theorem State.Inv.raise {s : State} (h : s.Inv) (c : FatalCause) : (s.raise c).Inv := { h with }

theorem State.Inv.simWrite {s : State} (h : s.Inv) (bytes : List Byte) (t : Rgb) : (s.simWrite bytes t).Inv :=
  { h with }

theorem State.Inv.deviceWriteWith {s : State} (h : s.Inv) (bytes : List Byte) (a : SinkAnswer) :
    (s.deviceWriteWith bytes a).Inv := by
  rw [State.deviceWriteWith_eq]
  exact { h with }

theorem State.Inv.afterSinkAnswer {s : State} (h : s.Inv) : s.afterSinkAnswer.Inv := { h with }

theorem State.Inv.sendFrame {s : State} (h : s.Inv) (r g b : Nat) : (s.sendFrame r g b).Inv := by
  rcases s.sendFrame_cases r g b with ⟨_, e⟩ | ⟨_, _, e⟩ | ⟨_, n, _, e⟩ <;> rw [e]
  · exact ((h.encFrame r g b).simWrite _ _).clearOut
  · exact ((h.afterSinkAnswer.encFrame r g b).deviceWriteWith _ _).clearOut
  · exact (((h.afterSinkAnswer.encFrame r g b).deviceWriteWith _ _).clearOut).raise _

/-! The compositor. -/

/-- The move toward the load read stays between the two (42_animation_engine.md R118). -/
theorem follow_le {rendered smoothed bound : Nat} (hr : rendered ≤ bound) (hs : smoothed ≤ bound) :
    follow rendered smoothed ≤ bound := by
  unfold follow
  split_ifs <;> omega

theorem State.Inv.cpuTick {s : State} (h : s.Inv) : s.cpuTick.Inv :=
  { h with
    rendered := follow_le h.rendered h.smoothed
    counters := congrArg (· + 1) h.counters }

theorem State.Inv.cycleTick {s : State} (h : s.Inv) : s.cycleTick.Inv :=
  { h with
    index := by
      rw [State.cycleTick_ccIndex]
      split_ifs
      · exact Nat.mod_lt _ (by decide)
      · exact h.index
    cycleStep := by
      have := h.cycleStep
      rw [State.cycleTick_ccStep, ccSteps]
      split_ifs <;> omega }

theorem State.Inv.pulseTick {s : State} (h : s.Inv) : s.pulseTick.Inv := { h with }

theorem State.Inv.debugTick {s : State} (h : s.Inv) : s.debugTick.Inv := { h with }

theorem State.Inv.leaveLoop {s : State} (h : s.Inv) : s.leaveLoop.Inv := { h with }

theorem State.Inv.tickState {s : State} (h : s.Inv) : s.tickState.Inv := by
  unfold State.tickState
  cases s.mode
  · exact h.cpuTick
  · exact h.cycleTick
  · exact h.pulseTick
  · exact h

theorem State.sendStatic_eq (after : StPhase) (s : State) :
    s.sendStatic after =
      if (s.sendFrame (unpackColor s.color).r (unpackColor s.color).g (unpackColor s.color).b).fault.isSome then
        s.sendFrame (unpackColor s.color).r (unpackColor s.color).g (unpackColor s.color).b
      else { s.sendFrame (unpackColor s.color).r (unpackColor s.color).g (unpackColor s.color).b with
        stPhase := after } := rfl

theorem State.Inv.sendStatic {s : State} (h : s.Inv) (after : StPhase) : (s.sendStatic after).Inv := by
  have hsend := h.sendFrame (unpackColor s.color).r (unpackColor s.color).g (unpackColor s.color).b
  rw [State.sendStatic_eq]
  split
  · exact hsend
  · exact { hsend with }

theorem State.Inv.staticStep {s : State} (h : s.Inv) : s.staticStep.Inv := by
  unfold State.staticStep
  split
  · exact h.sendStatic _
  · exact { h with }
  · exact h.sendStatic _
  · exact h

theorem State.Inv.runTick {s : State} (h : s.Inv) : s.runTick.Inv := by
  unfold State.runTick
  split_ifs
  · exact h.staticStep.leaveLoop
  · exact h.staticStep
  · exact h.leaveLoop
  · exact h.tickState.debugTick.sendFrame _ _ _

/-! The sampler. -/

/-- What moved of `busy` is part of what moved of `total`, so a percentage is at most 100 (43_load_sampler.md R150 (a);
log 9). -/
theorem loadPercent_grownBy_le {a d : Counters} {p : Nat} (h : loadPercent a (grownBy a d) = some p) : p ≤ 100 := by
  unfold loadPercent at h
  split_ifs at h
  cases h
  apply Nat.div_le_of_le_mul
  simp only [totalOf, busyOf, grownBy]
  omega

theorem sampleResult_le {m : MetricAnswer} {p : Nat} (h : sampleResult m = .percent p) : p ≤ 100 := by
  unfold sampleResult at h
  split at h
  · split at h
    · rename_i hp
      cases h
      exact loadPercent_grownBy_le hp
    · cases h
  · cases h

theorem State.Inv.afterMetricAnswer {s : State} (h : s.Inv) : s.afterMetricAnswer.Inv := { h with }

theorem State.Inv.keepSample {s : State} (h : s.Inv) (m : MetricAnswer) : (s.keepSample (sampleResult m)).Inv := by
  rcases s.keepSample_eq (sampleResult m) with ⟨p, hx, e⟩ | ⟨_, e⟩ <;> rw [e]
  · exact { h with
      smoothed := sampleResult_le hx
      last := sampleResult_le hx
      sampled := fun _ => rfl
      unsampled := fun hn => absurd hn (by simp) }
  · exact h

/-! Scheduler and host. -/

theorem one_le_coerceSpeed (n : Nat) : 1 ≤ coerceSpeed n := by
  unfold coerceSpeed
  split <;> omega

theorem State.Inv.configure {s : State} (h : s.Inv) (c : ConfigRecord) : (s.configure c).Inv := by
  unfold State.configure
  split
  · exact { h with speed := one_le_coerceSpeed _ }
  · exact { h with }

theorem State.Inv.afterDeviceAnswer {s : State} (h : s.Inv) : s.afterDeviceAnswer.Inv := { h with }

theorem State.Inv.initWith {s : State} (h : s.Inv) (answer : Bool) : (s.initWith answer).Inv := by
  cases answer
  · rw [State.initWith_false]
    exact { h with }
  · rw [State.initWith_true]
    exact { h with }

theorem State.Inv.openWith {s : State} (h : s.Inv) (answer : Bool) : (s.openWith answer).Inv := by
  cases answer
  · rw [State.openWith_false]
    exact { h with }
  · rw [State.openWith_true]
    exact { h with }

theorem State.Inv.startSampler {s : State} (h : s.Inv) : s.startSampler.Inv := { h with }

theorem State.Inv.tornDown {s : State} (h : s.Inv) : s.tornDown.Inv := { h with }

theorem State.Inv.endRun {s : State} (h : s.Inv) (status : Int) : (s.endRun status).Inv := { h with }

/-! Every operation, and every step. -/

/-- If `EXIT` answers a next state, the run had not ended, the code is one that a fatal exception leaves, and the run
ends. -/
theorem exec_exit_eq_next {code : ExitCode} {s t : State} :
    exec (.exit code) s = .next t ↔
      s.ended = false ∧ ¬(s.fault.isSome = true ∧ code = .ok) ∧ s.endRun (statusOf code) = t := by
  rw [exec_exit]
  split_ifs with hx hf
  · simp [hx]
  · simp [hf]
  · simp [hx, hf]

/-- Every operation keeps the invariant, in every state that meets it. -/
theorem exec_keeps_inv {i : Instr} {s t : State} (hs : s.Inv) (h : exec i s = .next t) : t.Inv := by
  cases i with
  | setd b => obtain ⟨_, ⟨⟩⟩ := asRender_eq_next.1 h; exact hs.setd b
  | clkh => obtain ⟨_, ⟨⟩⟩ := asRender_eq_next.1 h; exact hs.clkh
  | clkl => obtain ⟨_, ⟨⟩⟩ := asRender_eq_next.1 h; exact hs.clkl
  | emit => obtain ⟨_, ⟨⟩⟩ := asRender_eq_next.1 h; exact hs.emit
  | encbit b => obtain ⟨_, ⟨⟩⟩ := asRender_eq_next.1 h; exact hs.encBit b
  | encbyte v => obtain ⟨_, ⟨⟩⟩ := asRender_eq_next.1 h; exact hs.encByte _
  | encframe r g b => obtain ⟨_, ⟨⟩⟩ := asRender_eq_next.1 h; exact hs.encFrame r g b
  | sendframe r g b =>
    obtain ⟨_, h⟩ := asRender_eq_next.1 h
    obtain ⟨_, ⟨⟩⟩ := guardSend_eq_next.1 h
    exact hs.sendFrame r g b
  | decframe bytes => cases h; exact hs.returning _
  | tickCpuload => obtain ⟨_, ⟨⟩⟩ := asRender_eq_next.1 h; exact hs.cpuTick.returning _
  | tickCycle => obtain ⟨_, ⟨⟩⟩ := asRender_eq_next.1 h; exact hs.cycleTick.returning _
  | tickPulse => obtain ⟨_, ⟨⟩⟩ := asRender_eq_next.1 h; exact hs.pulseTick.returning _
  | stepStatic =>
    obtain ⟨_, h⟩ := asRender_eq_next.1 h
    split_ifs at h
    obtain ⟨_, ⟨⟩⟩ := guardSend_eq_next.1 h
    exact hs.staticStep
  | unpack c => obtain ⟨_, ⟨⟩⟩ := asRender_eq_next.1 h; exact hs.returning _
  | sample => obtain ⟨_, ⟨⟩⟩ := whileRunning_eq_next.1 h; exact hs.afterMetricAnswer.returning _
  | smploop => obtain ⟨_, ⟨⟩⟩ := whileRunning_eq_next.1 h; exact hs.afterMetricAnswer.keepSample _
  | config record =>
    obtain ⟨_, h⟩ := asRender_eq_next.1 h
    split_ifs at h
    cases h
    exact hs.configure record
  | init =>
    obtain ⟨_, h⟩ := asRender_eq_next.1 h
    split_ifs at h
    · cases h; exact { hs with }
    · cases h; exact hs.afterDeviceAnswer.initWith _
  | runtick =>
    obtain ⟨_, h⟩ := asRender_eq_next.1 h
    obtain ⟨_, ⟨⟩⟩ := guardSend_eq_next.1 h
    exact hs.runTick
  | write bytes =>
    obtain ⟨_, h⟩ := asRender_eq_next.1 h
    split_ifs at h
    obtain ⟨_, ⟨⟩⟩ := guardSend_eq_next.1 h
    exact (hs.afterSinkAnswer.deviceWriteWith _ _).returning _
  | simwrite bytes t => obtain ⟨_, ⟨⟩⟩ := asRender_eq_next.1 h; exact (hs.simWrite _ _).returning _
  | teardown => obtain ⟨_, ⟨⟩⟩ := asRender_eq_next.1 h; exact hs.tornDown
  | exit code =>
    obtain ⟨_, _, rfl⟩ := exec_exit_eq_next.1 h
    exact hs.endRun _
  | stopreq =>
    obtain ⟨_, h⟩ := whileRunning_eq_next.1 h
    split_ifs at h <;> cases h
    · exact hs
    · exact { hs with }

theorem State.Inv.afterHostRecord {s : State} (h : s.Inv) : s.afterHostRecord.Inv := { h with }

theorem State.Inv.afterNextAgent {s : State} (h : s.Inv) : s.afterNextAgent.Inv := { h with }

/-- The state in which an action performs its operation, or which it leaves, has a property. -/
def Action.Meets (P : State → Prop) : Action → Prop
  | .perform _ u => P u
  | .silent u => P u
  | .stop _ => True

theorem renderAction_inv {s : State} (h : s.Inv) : (renderAction s).Meets State.Inv := by
  unfold renderAction
  cases s.phase with
  | awaitConfig => exact h.afterHostRecord
  | awaitOpen => exact h.afterDeviceAnswer.openWith _
  | awaitSampler => exact h.startSampler
  | awaitInit | looping | awaitTeardown | awaitExit => exact h

theorem nextAction_inv {s : State} (h : s.Inv) : (nextAction s).Meets State.Inv := by
  rcases nextAction_cases s with ⟨_, e⟩ | ⟨_, _, e⟩ | ⟨_, _, e⟩ | ⟨_, e⟩ | ⟨_, e⟩ <;> rw [e]
  · trivial
  · exact h
  · exact h.afterNextAgent
  · exact h.afterNextAgent
  · exact renderAction_inv h.afterNextAgent

theorem step_keeps_inv {s t : State} (hs : s.Inv) (h : step s = .next t) : t.Inv := by
  have ha := nextAction_inv hs
  rcases step_eq_next h with ⟨i, rest, _, hi⟩ | ⟨_, i, u, e, hi⟩ | ⟨_, e⟩
  · exact exec_keeps_inv (s := { s with issue := rest }) { hs with } hi
  · rw [e] at ha
    exact exec_keeps_inv ha hi
  · rw [e] at ha
    exact ha

/-- Settles O53: an issued operation and the machine's own next action are both operations, or updates, that keep the
invariant. -/
theorem stepKeepsTheInvariant : Obligations.StepKeepsTheInvariant :=
  fun _ _ hs h => step_keeps_inv hs h

end Sys2Proof.Machine

/-! SUPPORT. The invariant of a run in the machine's own order (Safety.lean `RunInv`): what a step of that order can be,
said once, and each of these steps keeps the invariant. -/

namespace Sys2Proof.Machine

/-! What a step of the machine's own order can be. -/

/-- The steps of a run in the machine's own order (44_scheduler_and_sink.md R161, 60_exceptions.md R197) that no fatal
exception has stopped, from the state in which the choice of the agent has been taken; `RunInv.step_cases` ties it to
`step`. -/
inductive OwnStep (s : State) : State → Prop where
  | smploop : OwnStep s (s.afterMetricAnswer.keepSample (sampleResult s.metricAnswer))
  | stopreq : OwnStep s { s with stop := true }
  | config (hp : s.phase = .awaitConfig) : OwnStep s (s.afterHostRecord.configure s.hostRecord)
  | openDevice (hp : s.phase = .awaitOpen) : OwnStep s (s.afterDeviceAnswer.openWith s.deviceAnswer)
  | init (hp : s.phase = .awaitInit) : OwnStep s (s.afterDeviceAnswer.initWith s.deviceAnswer)
  | startSampler (hp : s.phase = .awaitSampler) : OwnStep s s.startSampler
  | tick (hp : s.phase = .looping) (hs : s.tickSends = true → s.sinkReady = true) : OwnStep s s.runTick
  | teardown (hp : s.phase = .awaitTeardown) : OwnStep s s.tornDown
  | exit (hp : s.phase = .awaitExit) : OwnStep s (s.endRun exitOk)

/-- What an action leads to; `step_of_nothing_issued` ties it to `step`. -/
def Action.result : Action → StepOutcome
  | .perform i u => exec i u
  | .silent u => .next u
  | .stop f => .fault f

theorem step_of_nothing_issued {s : State} (h : s.issue = []) : step s = (nextAction s).result := by
  unfold step
  rw [h]
  cases nextAction s <;> rfl

/-- A step of the render agent in a run is one of its own steps: at the place of `INIT` the device is neither simulated
nor initialised. -/
theorem State.RunInv.ownStep_of_renderAction {s t : State} (h : s.RunInv)
    (hn : (renderAction s).result = .next t) : OwnStep s t := by
  unfold renderAction at hn
  cases hp : s.phase <;> rw [hp] at hn
  case awaitConfig =>
    obtain ⟨_, hn⟩ := asRender_eq_next.1 hn
    rw [State.afterHostRecord_phase, if_pos hp] at hn
    cases hn
    exact .config hp
  case awaitOpen =>
    cases hn
    exact .openDevice hp
  case awaitInit =>
    obtain ⟨_, hn⟩ := asRender_eq_next.1 hn
    rw [h.deviceRun (.inr (.inl hp)), h.notInitialised (by rw [hp]; rfl)] at hn
    cases hn
    exact .init hp
  case awaitSampler =>
    cases hn
    exact .startSampler hp
  case looping =>
    obtain ⟨_, hn⟩ := asRender_eq_next.1 hn
    obtain ⟨hs, ⟨⟩⟩ := guardSend_eq_next.1 hn
    exact .tick hp hs
  case awaitTeardown =>
    obtain ⟨_, ⟨⟩⟩ := asRender_eq_next.1 hn
    exact .teardown hp
  case awaitExit =>
    obtain ⟨_, _, rfl⟩ := exec_exit_eq_next.1 hn
    exact .exit hp

theorem State.RunInv.afterNextAgent {s : State} (h : s.RunInv) : s.afterNextAgent.RunInv :=
  { h with inv := h.inv.afterNextAgent }

/-- A step in a run is `EXIT EXIT_FAIL` after a fatal exception, or a step of the machine's own order in a state where
the render agent can move. -/
theorem State.RunInv.step_cases {s t : State} (h : s.RunInv) (hn : step s = .next t) :
    (s.exitStatus = none ∧ s.fault ≠ none ∧ t = s.endRun exitFail) ∨ (s.Ready ∧ OwnStep s.afterNextAgent t) := by
  rw [step_of_nothing_issued h.nothingIssued] at hn
  rcases nextAction_cases s with ⟨_, e⟩ | ⟨he, hf, e⟩ | ⟨hr, _, e⟩ | ⟨hr, e⟩ | ⟨hr, e⟩ <;> rw [e] at hn
  · cases hn
  · have hx : s.exitStatus = none := by simpa [State.ended] using he
    obtain ⟨_, _, ht⟩ := exec_exit_eq_next.1 hn
    exact .inl ⟨hx, Option.isSome_iff_ne_none.1 hf, ht.symm⟩
  · obtain ⟨_, ⟨⟩⟩ := whileRunning_eq_next.1 hn
    exact .inr ⟨hr, .smploop⟩
  · obtain ⟨_, hn⟩ := whileRunning_eq_next.1 hn
    have hf : s.afterNextAgent.fault.isSome = false := by rw [State.afterNextAgent_fault, hr.2]; rfl
    rw [hf] at hn
    cases hn
    exact .inr ⟨hr, .stopreq⟩
  · exact .inr ⟨hr, h.afterNextAgent.ownStep_of_renderAction hn⟩

/-! Updates that a run is made of. -/

/-- In a state where the render agent can move there is no fatal cause. -/
theorem State.Ready.fault_ne {s : State} (h : s.Ready) (c : FatalCause) : s.fault ≠ some c := by
  rw [h.2]
  nofun

/-- In a state where the render agent can move there is no exit status. -/
theorem State.Ready.exitStatus_ne {s : State} (h : s.Ready) (x : Int) : s.exitStatus ≠ some x := by
  rw [h.1]
  nofun

theorem State.RunInv.afterHostRecord {s : State} (h : s.RunInv) : s.afterHostRecord.RunInv :=
  { h with inv := h.inv.afterHostRecord }

theorem State.RunInv.afterDeviceAnswer {s : State} (h : s.RunInv) : s.afterDeviceAnswer.RunInv :=
  { h with inv := h.inv.afterDeviceAnswer }

theorem State.RunInv.afterMetricAnswer {s : State} (h : s.RunInv) : s.afterMetricAnswer.RunInv :=
  { h with inv := h.inv.afterMetricAnswer }

theorem State.RunInv.afterSinkAnswer {s : State} (h : s.RunInv) : s.afterSinkAnswer.RunInv :=
  { h with inv := h.inv.afterSinkAnswer }

theorem State.RunInv.afterDraw {s : State} (h : s.RunInv) : s.afterDraw.RunInv :=
  { h with inv := { h.inv with } }

theorem State.RunInv.freeWires {s : State} (h : s.RunInv) : s.freeWires.RunInv :=
  { h with inv := { h.inv with } }

theorem State.RunInv.observe {s : State} (h : s.RunInv) (e : Event) : (s.observe e).RunInv :=
  { h with
    inv := { h.inv with }
    tornDownOnce := fun hp hs => List.mem_append_left _ (h.tornDownOnce hp hs) }

/-- The places in a run at which a fatal cause can arise (60_exceptions.md R180). -/
def State.MayRaise (s : State) : FatalCause → Prop
  | .configurationInvalid _ => s.phase = .awaitConfig
  | .deviceUnavailable _ => s.phase = .awaitOpen ∨ s.phase = .awaitInit
  | .writeFailure _ => s.phase = .looping ∧ s.simulate = false

/-- A fatal exception taken where its cause can arise keeps the invariant of a run. -/
theorem State.RunInv.raise {s : State} (h : s.RunInv) (hr : s.Ready) {c : FatalCause} (hc : s.MayRaise c) :
    (s.raise c).RunInv :=
  { h.observe (.message c (Config.messageText c)) with
    inv := h.inv.raise c
    whole := fun _ => h.whole fun x => hr.fault_ne _
    staticFrames := nofun
    badConfig := by
      rintro o ⟨⟩
      exact hc
    noDevice := by
      rintro d ⟨⟩
      exact hc
    failedWrite := by
      rintro x ⟨⟩
      exact hc
    exited := fun x e => absurd e (hr.exitStatus_ne x) }

/-- A run moves on to the place `p`, with `INITED` now `ini`: what must hold for the invariant of a run to be kept. -/
theorem State.RunInv.moveTo {s : State} (h : s.RunInv) (hr : s.Ready) {p : RunPhase} {ini : Bool}
    (configured : p ≠ .awaitConfig)
    (beforeLoop : p.beforeLoop = true → s.phase.beforeLoop = true)
    (initialised : p.afterInit = true → s.simulate = false → ini = true)
    (notInitialised : p.afterInit = false → ini = false)
    (deviceRun : p = .awaitOpen ∨ p = .awaitInit ∨ p = .awaitTeardown → s.simulate = false)
    (simulated : s.simulate = true → ini = false)
    (loopLeft : p = .awaitTeardown ∨ p = .awaitExit →
      (s.mode = .static → s.stPhase = .done) ∧ (s.mode ≠ .static → s.stop = true))
    (tornDown : p = .awaitExit → s.simulate = false → Event.teardown ∈ s.events) :
    ({ s with phase := p, inited := ini } : State).RunInv :=
  { h with
    inv := { h.inv with }
    noFrameYet := fun hp => h.noFrameYet (beforeLoop hp)
    initialised := initialised
    notInitialised := notInitialised
    unconfigured := fun hp => absurd hp configured
    deviceRun := deviceRun
    simulated := simulated
    badConfig := fun _ e => absurd e (hr.fault_ne _)
    noDevice := fun _ e => absurd e (hr.fault_ne _)
    failedWrite := fun _ e => absurd e (hr.fault_ne _)
    loopLeft := loopLeft
    tornDownOnce := tornDown
    exited := fun x e => absurd e (hr.exitStatus_ne x) }

/-! The steps outside the loop. -/

theorem State.RunInv.keepSample {s : State} (h : s.RunInv) (m : MetricAnswer) :
    (s.keepSample (sampleResult m)).RunInv := by
  have hi := h.inv.keepSample m
  rcases s.keepSample_eq (sampleResult m) with ⟨p, _, e⟩ | ⟨_, e⟩ <;> rw [e] at hi ⊢
  · exact { h with inv := hi }
  · exact h

theorem State.RunInv.requestStop {s : State} (h : s.RunInv) : ({ s with stop := true } : State).RunInv :=
  { h with
    inv := { h.inv with }
    loopLeft := fun hp => ⟨(h.loopLeft hp).1, fun _ => rfl⟩ }

/-- `CONFIG` in its place: the state it finds has every mode's state and the stream at their reset values, so any mode may
be selected. -/
theorem State.RunInv.latchConfig {s : State} (h : s.RunInv) (hr : s.Ready) (hp : s.phase = .awaitConfig)
    (c : ConfigRecord) : (s.latchConfig c).RunInv := by
  have hinit : s.inited = false := h.notInitialised (by rw [hp]; rfl)
  obtain ⟨hstream, hst⟩ := h.noFrameYet (by rw [hp]; rfl)
  obtain ⟨_, hmode, hcpu⟩ := h.unconfigured hp
  have hplace : ((s.latchConfig c).phase = .awaitSampler ∧ (s.latchConfig c).simulate = true) ∨
      ((s.latchConfig c).phase = .awaitOpen ∧ (s.latchConfig c).simulate = false) := by
    cases hs : (s.latchConfig c).simulate
    · exact .inr ⟨congrArg phaseAfterConfig hs, rfl⟩
    · exact .inl ⟨congrArg phaseAfterConfig hs, rfl⟩
  exact { h with
    inv := { h.inv with speed := one_le_coerceSpeed _ }
    noFrameYet := fun _ => ⟨hstream, hst⟩
    initialised := by
      rcases hplace with ⟨e, es⟩ | ⟨e, _⟩ <;> rw [e]
      · rw [es]
        nofun
      · nofun
    notInitialised := fun _ => hinit
    unconfigured := by rcases hplace with ⟨e, _⟩ | ⟨e, _⟩ <;> rw [e] <;> nofun
    deviceRun := by
      rcases hplace with ⟨e, _⟩ | ⟨_, es⟩
      · rw [e]
        simp
      · exact fun _ => es
    simulated := fun _ => hinit
    cpuUnselected := fun _ => hcpu
    cycleUnselected := fun _ => h.cycleUnselected (by rw [hmode]; decide)
    pulseUnselected := fun _ => h.pulseUnselected (by rw [hmode]; decide)
    staticUnselected := fun _ => hst
    staticFrames := fun _ _ => by rw [State.latchConfig_outStream, State.latchConfig_stPhase, hstream, hst]; rfl
    badConfig := fun _ e => absurd e (hr.fault_ne _)
    noDevice := fun _ e => absurd e (hr.fault_ne _)
    failedWrite := fun _ e => absurd e (hr.fault_ne _)
    loopLeft := by rcases hplace with ⟨e, _⟩ | ⟨e, _⟩ <;> rw [e] <;> simp
    tornDownOnce := by rcases hplace with ⟨e, _⟩ | ⟨e, _⟩ <;> rw [e] <;> nofun
    exited := fun x e => absurd e (hr.exitStatus_ne x) }

theorem State.RunInv.configure {s : State} (h : s.RunInv) (hr : s.Ready) (hp : s.phase = .awaitConfig)
    (c : ConfigRecord) : (s.configure c).RunInv := by
  unfold State.configure
  split
  · exact h.latchConfig hr hp c
  · exact h.afterDraw.raise hr hp

theorem State.RunInv.openWith {s : State} (h : s.RunInv) (hr : s.Ready) (hp : s.phase = .awaitOpen) (answer : Bool) :
    (s.openWith answer).RunInv := by
  have hinit : s.inited = false := h.notInitialised (by rw [hp]; rfl)
  cases answer
  · exact (h.observe _).raise hr (.inl hp)
  · rw [State.openWith_true, hinit]
    exact (h.observe (.openDevice true)).moveTo hr (ini := false)
      (configured := by decide) (beforeLoop := fun _ => by rw [State.observe_phase, hp]; rfl)
      (initialised := nofun) (notInitialised := fun _ => rfl) (deviceRun := fun _ => h.deviceRun (.inl hp))
      (simulated := fun _ => rfl) (loopLeft := by simp) (tornDown := nofun)

theorem State.RunInv.initWith {s : State} (h : s.RunInv) (hr : s.Ready) (hp : s.phase = .awaitInit) (answer : Bool) :
    (s.initWith answer).RunInv := by
  have hsim : s.simulate = false := h.deviceRun (.inr (.inl hp))
  have hw : (s.observe (.enterBitbang Config.bitbangMask answer)).freeWires.RunInv := (h.observe _).freeWires
  have hwr : (s.observe (.enterBitbang Config.bitbangMask answer)).freeWires.Ready := by simpa [State.Ready] using hr
  have hwp : (s.observe (.enterBitbang Config.bitbangMask answer)).freeWires.phase = .awaitInit := by simpa using hp
  have hws : (s.observe (.enterBitbang Config.bitbangMask answer)).freeWires.simulate = false := by simpa using hsim
  unfold State.initWith
  cases answer
  · exact hw.raise hwr (.inr hwp)
  · rw [hp]
    exact hw.moveTo hwr (p := .awaitSampler) (ini := true)
      (configured := by decide) (beforeLoop := fun _ => by rw [hwp]; rfl) (initialised := fun _ _ => rfl)
      (notInitialised := nofun) (deviceRun := by simp) (simulated := fun e => absurd (hws.symm.trans e) (by decide))
      (loopLeft := by simp) (tornDown := nofun)

theorem State.RunInv.startSampler {s : State} (h : s.RunInv) (hr : s.Ready) (hp : s.phase = .awaitSampler) :
    s.startSampler.RunInv :=
  have hm := h.moveTo hr (p := .looping) (ini := s.inited)
    (configured := by decide) (beforeLoop := nofun) (initialised := fun _ => h.initialised (by rw [hp]; rfl))
    (notInitialised := nofun) (deviceRun := by simp) (simulated := h.simulated) (loopLeft := by simp)
    (tornDown := nofun)
  { hm with inv := { hm.inv with } }

theorem State.RunInv.tornDown {s : State} (h : s.RunInv) (hr : s.Ready) (hp : s.phase = .awaitTeardown) :
    s.tornDown.RunInv := by
  have hsim : s.simulate = false := h.deviceRun (.inr (.inr hp))
  exact { h with
    inv := h.inv.tornDown
    noFrameYet := nofun
    initialised := fun _ => h.initialised (by rw [hp]; rfl)
    notInitialised := nofun
    unconfigured := nofun
    deviceRun := by simp
    badConfig := fun _ e => absurd e (hr.fault_ne _)
    noDevice := fun _ e => absurd e (hr.fault_ne _)
    failedWrite := fun _ e => absurd e (hr.fault_ne _)
    loopLeft := fun _ => h.loopLeft (.inl hp)
    tornDownOnce := fun _ _ => by simp [hsim]
    exited := fun x e => absurd e (hr.exitStatus_ne x) }

theorem State.RunInv.endRun {s : State} (h : s.RunInv) {status : Int}
    (hx : (status = 0 ∧ s.fault = none ∧ s.phase = .awaitExit) ∨ (status = exitFail ∧ s.fault ≠ none)) :
    (s.endRun status).RunInv :=
  { h.observe (.exit status) with
    inv := h.inv.endRun status
    exited := by
      rintro x ⟨⟩
      exact hx }

/-! The render loop. -/

theorem RunPhase.not_beforeLoop {p : RunPhase} (h : p = .looping) : ¬p.beforeLoop = true := by
  rw [h]
  nofun

theorem RunPhase.not_left {p : RunPhase} (h : p = .looping) : ¬(p = .awaitTeardown ∨ p = .awaitExit) := by
  rw [h]
  nofun

/-- A frame that the sink took, in the loop: one more frame on the stream, counted in the static mode by the phase that
follows. -/
theorem State.RunInv.frameTaken {s : State} (h : s.RunInv) (hf : s.fault = none) (hp : s.phase = .looping)
    (r g b : Nat) (e : Event) (wires : Wires) {following : StPhase}
    (hstatic : s.mode = .static → following.framesSent = s.stPhase.framesSent + 1)
    (hother : s.mode ≠ .static → following = .send1) :
    ({ s with
      frR := trunc8 r
      frG := trunc8 g
      frB := trunc8 b
      ls := s.frameLine r g b
      out := []
      pos := 0
      outStream := s.outStream ++ s.frameBytes r g b
      events := s.events ++ [e]
      phy := wires
      stPhase := following } : State).RunInv := by
  obtain ⟨hclock, _, hreserved⟩ := s.frameLine_ends r g b
  exact { h.observe e with
    inv := { h.inv with reserved := hreserved.trans h.inv.reserved, position := rfl }
    clockLow := hclock
    empty := rfl
    whole := fun hw => by
      rw [List.length_append, State.frameBytes_length]
      exact Dvd.dvd.add (h.whole hw) (dvd_refl 72)
    noFrameYet := fun hb => absurd hb (RunPhase.not_beforeLoop hp)
    staticUnselected := hother
    staticFrames := fun hm _ => by
      rw [List.length_append, State.frameBytes_length, h.staticFrames hm hf, hstatic hm]
      omega
    loopLeft := fun hl => absurd hl (RunPhase.not_left hp) }

/-- A frame that the device refused, in the loop: a fatal `WriteFailure`. -/
theorem State.RunInv.frameRefused {s : State} (h : s.RunInv) (hr : s.Ready) (hp : s.phase = .looping)
    (hsim : s.simulate = false) (r g b : Nat) (n : Fin 73) : (s.sendFrameWith r g b (.fail n)).RunInv := by
  obtain ⟨hclock, _, hreserved⟩ := s.frameLine_ends r g b
  have hraised := (h.observe (.write (s.frameBytes r g b) (.fail n))).raise
    (c := .writeFailure (s.frameBytes r g b)) hr ⟨hp, hsim⟩
  rw [State.sendFrameWith_fail]
  exact { hraised with
    inv := { h.inv with reserved := hreserved.trans h.inv.reserved, position := rfl }
    clockLow := hclock
    empty := rfl
    whole := fun hw => absurd rfl (hw _)
    noFrameYet := fun hb => absurd hb (RunPhase.not_beforeLoop hp)
    staticFrames := nofun }

/-- A `SENDFRAME` in the loop, followed in the static mode by the phase that counts it if the sink took it. -/
theorem State.RunInv.sendFrame_then {s : State} (h : s.RunInv) (hr : s.Ready) (hp : s.phase = .looping)
    (r g b : Nat) {following : StPhase}
    (hstatic : s.mode = .static → following.framesSent = s.stPhase.framesSent + 1)
    (hother : s.mode ≠ .static → following = .send1) :
    (if (s.sendFrame r g b).fault.isSome then s.sendFrame r g b
      else { s.sendFrame r g b with stPhase := following }).RunInv := by
  rcases s.sendFrame_cases r g b with ⟨_, e⟩ | ⟨_, _, e⟩ | ⟨hsim, n, _, e⟩ <;> rw [e]
  · rw [State.sendFrameSim_eq, if_neg (by simp [hr.2])]
    exact h.frameTaken hr.2 hp r g b _ s.phy hstatic hother
  · rw [State.sendFrameWith_ok, if_neg (by simp [hr.2])]
    exact h.afterSinkAnswer.frameTaken hr.2 hp r g b _ _ hstatic hother
  · rw [if_pos (by rw [State.sendFrameWith_fail]; rfl)]
    exact h.afterSinkAnswer.frameRefused hr hp hsim r g b n

/-- A `SENDFRAME` in the loop of a looping mode. -/
theorem State.RunInv.sendFrame {s : State} (h : s.RunInv) (hr : s.Ready) (hp : s.phase = .looping)
    (hm : s.mode ≠ .static) (r g b : Nat) : (s.sendFrame r g b).RunInv := by
  have hsend := h.sendFrame_then hr hp r g b (following := s.stPhase) (fun e => absurd e hm) h.staticUnselected
  have hst : (s.sendFrame r g b).stPhase = s.stPhase := by
    obtain ⟨_, ⟨_, _, _, _, _, _, _, _, _, hst⟩, _⟩ := s.sendFrame_frame r g b
    exact hst
  rw [← hst] at hsend
  split at hsend
  · exact hsend
  · exact hsend

theorem State.RunInv.sendStatic {s : State} (h : s.RunInv) (hr : s.Ready) (hp : s.phase = .looping)
    (hm : s.mode = .static) {following : StPhase} (hn : following.framesSent = s.stPhase.framesSent + 1) :
    (s.sendStatic following).RunInv :=
  h.sendFrame_then hr hp _ _ _ (fun _ => hn) (fun e => absurd hm e)

theorem State.RunInv.staticStep {s : State} (h : s.RunInv) (hr : s.Ready) (hp : s.phase = .looping)
    (hm : s.mode = .static) : s.staticStep.RunInv := by
  unfold State.staticStep
  split
  case h_1 hst => exact h.sendStatic hr hp hm (by rw [hst]; rfl)
  case h_2 hst =>
    exact { h with
      inv := { h.inv with }
      noFrameYet := fun hb => absurd hb (RunPhase.not_beforeLoop hp)
      staticUnselected := fun e => absurd hm e
      staticFrames := fun _ _ => by
        rw [h.staticFrames hm hr.2, hst]
        rfl
      loopLeft := fun hl => absurd hl (RunPhase.not_left hp) }
  case h_3 hst => exact h.sendStatic hr hp hm (by rw [hst]; rfl)
  case h_4 => exact h

/-- A tick operation of the mode selected writes only that mode's state. -/
theorem State.RunInv.tickState {s : State} (h : s.RunInv) (hp : s.phase = .looping) : s.tickState.RunInv := by
  have hi := h.inv.tickState
  unfold State.tickState at hi ⊢
  cases hm : s.mode <;> rw [hm] at hi
  case cpuLoad =>
    exact { h with
      inv := hi
      unconfigured := fun e => absurd (hp.symm.trans e) (by decide)
      cpuUnselected := fun e => absurd hm e }
  case colorCycle => exact { h with inv := hi, cycleUnselected := fun e => absurd hm e }
  case pulse => exact { h with inv := hi, pulseUnselected := fun e => absurd hm e }
  case static => exact h

theorem State.RunInv.debugTick {s : State} (h : s.RunInv) (hp : s.phase = .looping) : s.debugTick.RunInv :=
  { h with
    inv := h.inv.debugTick
    tornDownOnce := fun e => absurd (hp.symm.trans e) (by decide) }

/-- The loop is left at `Done` in the static mode, and after a stop in the others. -/
theorem State.RunInv.leaveLoop {s : State} (h : s.RunInv) (hr : s.Ready) (hp : s.phase = .looping)
    (hl : (s.mode = .static → s.stPhase = .done) ∧ (s.mode ≠ .static → s.stop = true)) : s.leaveLoop.RunInv := by
  cases hs : s.simulate
  · have e : s.leaveLoop = { s with phase := .awaitTeardown } := by simp [State.leaveLoop, hs, hp]
    rw [e]
    exact h.moveTo hr (p := .awaitTeardown) (ini := s.inited) (configured := by decide) (beforeLoop := nofun)
      (initialised := fun _ => h.initialised (by rw [hp]; rfl)) (notInitialised := nofun) (deviceRun := fun _ => hs)
      (simulated := h.simulated) (loopLeft := fun _ => hl) (tornDown := nofun)
  · have e : s.leaveLoop = { s with phase := .awaitExit } := by simp [State.leaveLoop, hs]
    rw [e]
    exact h.moveTo hr (p := .awaitExit) (ini := s.inited) (configured := by decide) (beforeLoop := nofun)
      (initialised := fun _ => h.initialised (by rw [hp]; rfl)) (notInitialised := nofun) (deviceRun := by simp)
      (simulated := h.simulated) (loopLeft := fun _ => hl)
      (tornDown := fun _ e => absurd (hs.symm.trans e) (by decide))

end Sys2Proof.Machine

/-! SUPPORT. The render loop and the machine's own order as a whole: what an iteration leaves unchanged, and the two
statements about a run. -/

namespace Sys2Proof.Machine

/-! What an iteration of the render loop leaves unchanged. -/

/-- A static send moves to the phase that follows if the sink took the frame, and stays where it was after a
`WriteFailure`; it changes neither the mode, nor the place in the run, nor `INITED`. -/
theorem State.sendStatic_frame (following : StPhase) (s : State) :
    (s.sendStatic following).mode = s.mode ∧ (s.sendStatic following).phase = s.phase ∧
      (s.sendStatic following).exitStatus = s.exitStatus ∧ (s.sendStatic following).inited = s.inited ∧
      ((s.sendStatic following).stPhase = s.stPhase ∨
        (s.sendStatic following).fault = none ∧ (s.sendStatic following).stPhase = following) := by
  obtain ⟨⟨hmode, _⟩, ⟨_, _, _, _, _, _, _, _, _, hst⟩, ⟨_, hinit, hphase, _, hexit, _⟩, _⟩ :=
    s.sendFrame_frame (unpackColor s.color).r (unpackColor s.color).g (unpackColor s.color).b
  rw [State.sendStatic_eq]
  split
  case isTrue => exact ⟨hmode, hphase, hexit, hinit, .inl hst⟩
  case isFalse hf => exact ⟨hmode, hphase, hexit, hinit, .inr ⟨by simpa using hf, rfl⟩⟩

/-- An iteration of the static mode that reaches `Done`, or finds it, took no exception; and it changes neither the mode,
nor the place in the run, nor `INITED`. -/
theorem State.staticStep_frame (s : State) :
    s.staticStep.mode = s.mode ∧ s.staticStep.phase = s.phase ∧ s.staticStep.exitStatus = s.exitStatus ∧
      s.staticStep.inited = s.inited ∧
      (s.staticStep.stPhase = .done → s.fault = none → s.staticStep.fault = none) := by
  unfold State.staticStep
  split
  case h_1 hst =>
    obtain ⟨hmode, hphase, hexit, hinit, hgo⟩ := s.sendStatic_frame .pause
    refine ⟨hmode, hphase, hexit, hinit, fun hd => ?_⟩
    rcases hgo with h | ⟨_, h⟩
    · exact absurd (hst.symm.trans (h.symm.trans hd)) (by decide)
    · exact absurd (h.symm.trans hd) (by decide)
  case h_2 => exact ⟨rfl, rfl, rfl, rfl, nofun⟩
  case h_3 hst =>
    obtain ⟨hmode, hphase, hexit, hinit, hgo⟩ := s.sendStatic_frame .done
    refine ⟨hmode, hphase, hexit, hinit, fun hd _ => ?_⟩
    rcases hgo with h | ⟨h, _⟩
    · exact absurd (hst.symm.trans (h.symm.trans hd)) (by decide)
    · exact h
  case h_4 => exact ⟨rfl, rfl, rfl, rfl, fun _ h => h⟩

/-- The tick operation of a mode changes neither the mode, nor the place in the run, nor `INITED`,
and takes no exception. -/
theorem State.tickState_frame (s : State) :
    s.tickState.mode = s.mode ∧ s.tickState.phase = s.phase ∧ s.tickState.exitStatus = s.exitStatus ∧
      s.tickState.inited = s.inited ∧ s.tickState.fault = s.fault := by
  unfold State.tickState
  split <;> exact ⟨rfl, rfl, rfl, rfl, rfl⟩

theorem State.runTick_of_static {s : State} (hm : s.mode = .static) :
    s.runTick = if s.staticStep.stPhase = .done then s.staticStep.leaveLoop else s.staticStep := by
  rw [State.runTick, if_pos hm]

theorem State.runTick_of_stop {s : State} (hm : s.mode ≠ .static) (hs : s.stop = true) : s.runTick = s.leaveLoop := by
  rw [State.runTick, if_neg hm, if_pos hs]

theorem State.runTick_of_tick {s : State} (hm : s.mode ≠ .static) (hs : s.stop = false) :
    s.runTick = s.tickState.debugTick.sendFrame s.tickFrame.r s.tickFrame.g s.tickFrame.b := by
  rw [State.runTick, if_neg hm, if_neg (Bool.not_eq_true _ ▸ hs)]

/-- The four ways an iteration of the render loop can go (44_scheduler_and_sink.md R163, R164, R171). -/
theorem State.runTick_cases (s : State) :
    (s.mode = .static ∧ s.staticStep.stPhase = .done ∧ s.runTick = s.staticStep.leaveLoop) ∨
      (s.mode = .static ∧ s.staticStep.stPhase ≠ .done ∧ s.runTick = s.staticStep) ∨
      (s.mode ≠ .static ∧ s.stop = true ∧ s.runTick = s.leaveLoop) ∨
      (s.mode ≠ .static ∧ s.stop = false ∧
        s.runTick = s.tickState.debugTick.sendFrame s.tickFrame.r s.tickFrame.g s.tickFrame.b) := by
  by_cases hm : s.mode = .static
  · rw [State.runTick_of_static hm]
    by_cases hd : s.staticStep.stPhase = .done
    · exact .inl ⟨hm, hd, if_pos hd⟩
    · exact .inr (.inl ⟨hm, hd, if_neg hd⟩)
  · cases hs : s.stop
    · exact .inr (.inr (.inr ⟨hm, rfl, State.runTick_of_tick hm hs⟩))
    · exact .inr (.inr (.inl ⟨hm, rfl, State.runTick_of_stop hm hs⟩))

theorem State.runTick_inited (s : State) : s.runTick.inited = s.inited := by
  obtain ⟨_, _, _, hstatic, _⟩ := s.staticStep_frame
  rcases s.runTick_cases with ⟨_, _, e⟩ | ⟨_, _, e⟩ | ⟨_, _, e⟩ | ⟨_, _, e⟩ <;> rw [e]
  · exact hstatic
  · exact hstatic
  · rfl
  · obtain ⟨_, _, ⟨_, hsend, _⟩, _⟩ :=
      s.tickState.debugTick.sendFrame_frame s.tickFrame.r s.tickFrame.g s.tickFrame.b
    obtain ⟨_, _, _, htick, _⟩ := s.tickState_frame
    exact hsend.trans htick

/-- An iteration that sends no frame leaves the stream as it was. -/
theorem State.runTick_outStream {s : State} (h : s.tickSends = false) : s.runTick.outStream = s.outStream := by
  have hstep (hm : s.mode = .static) : s.staticStep.outStream = s.outStream := by
    rw [State.tickSends, if_pos hm, State.staticSends] at h
    unfold State.staticStep
    cases hst : s.stPhase
    case pause => rfl
    case done => rfl
    all_goals rw [hst] at h; cases h
  rcases s.runTick_cases with ⟨hm, _, e⟩ | ⟨hm, _, e⟩ | ⟨_, _, e⟩ | ⟨hm, hs, _⟩
  · rw [e]
    exact hstep hm
  · rw [e]
    exact hstep hm
  · rw [e]
    rfl
  · rw [State.tickSends, if_neg hm, hs] at h
    cases h

/-! The invariant of a run. -/

theorem State.RunInv.runTick {s : State} (h : s.RunInv) (hr : s.Ready) (hp : s.phase = .looping) : s.runTick.RunInv := by
  obtain ⟨hmode, hphase, hexit, _, hfault⟩ := s.staticStep_frame
  rcases s.runTick_cases with ⟨hm, hd, e⟩ | ⟨hm, _, e⟩ | ⟨hm, hs, e⟩ | ⟨hm, _, e⟩ <;> rw [e]
  · exact (h.staticStep hr hp hm).leaveLoop ⟨hexit.trans hr.1, hfault hd hr.2⟩ (hphase.trans hp)
      ⟨fun _ => hd, fun hn => absurd (hmode.trans hm) hn⟩
  · exact h.staticStep hr hp hm
  · exact h.leaveLoop hr hp ⟨fun hn => absurd hn hm, fun _ => hs⟩
  · obtain ⟨hmode, hphase, hexit, _, hfault⟩ := s.tickState_frame
    have ht : s.tickState.debugTick.RunInv := (h.tickState hp).debugTick (hphase.trans hp)
    exact ht.sendFrame ⟨hexit.trans hr.1, hfault.trans hr.2⟩
      (hphase.trans hp) (by rw [State.debugTick_mode, hmode]; exact hm) _ _ _

/-- Every step of a run that no fatal exception has stopped keeps the invariant of a run. -/
theorem OwnStep.keeps_runInv {s t : State} (h : s.RunInv) (hr : s.Ready) (ht : OwnStep s t) : t.RunInv := by
  cases ht with
  | smploop => exact h.afterMetricAnswer.keepSample _
  | stopreq => exact h.requestStop
  | config hp => exact h.afterHostRecord.configure hr hp _
  | openDevice hp => exact h.afterDeviceAnswer.openWith hr hp _
  | init hp => exact h.afterDeviceAnswer.initWith hr hp _
  | startSampler hp => exact h.startSampler hr hp
  | tick hp _ => exact h.runTick hr hp
  | teardown hp => exact h.tornDown hr hp
  | exit hp => exact h.endRun (.inl ⟨rfl, hr.2, hp⟩)

/-- Settles O55: every step of a run is one that keeps the invariant. -/
theorem ownOrderKeepsTheRunInvariant : Obligations.OwnOrderKeepsTheRunInvariant := by
  intro s t h hn
  rcases h.step_cases hn with ⟨_, hf, rfl⟩ | ⟨hr, ht⟩
  · exact h.endRun (.inr ⟨rfl, hf⟩)
  · exact ht.keeps_runInv h.afterNextAgent hr

/-! Nothing is sent before the device is initialised. -/

@[simp] theorem State.keepSample_outStream (x : Result) (s : State) : (s.keepSample x).outStream = s.outStream := by
  cases x <;> rfl

@[simp] theorem State.keepSample_inited (x : Result) (s : State) : (s.keepSample x).inited = s.inited := by
  cases x <;> rfl

@[simp] theorem State.configure_outStream (c : ConfigRecord) (s : State) :
    (s.configure c).outStream = s.outStream := by
  unfold State.configure
  split <;> rfl

@[simp] theorem State.configure_inited (c : ConfigRecord) (s : State) : (s.configure c).inited = s.inited := by
  unfold State.configure
  split <;> rfl

@[simp] theorem State.openWith_outStream (answer : Bool) (s : State) :
    (s.openWith answer).outStream = s.outStream := by
  cases answer
  · rw [State.openWith_false]
  · rw [State.openWith_true]

@[simp] theorem State.openWith_inited (answer : Bool) (s : State) : (s.openWith answer).inited = s.inited := by
  cases answer
  · rw [State.openWith_false]
  · rw [State.openWith_true]

@[simp] theorem State.initWith_outStream (answer : Bool) (s : State) :
    (s.initWith answer).outStream = s.outStream := by
  cases answer
  · rw [State.initWith_false]
  · rw [State.initWith_true]

@[simp] theorem State.initWith_inited (answer : Bool) (s : State) :
    (s.initWith answer).inited = (answer || s.inited) := by
  cases answer
  · rw [State.initWith_false, Bool.false_or]
  · rw [State.initWith_true, Bool.true_or]

/-- Only an iteration of the render loop that may send writes the stream. -/
theorem OwnStep.outStream_changed {s t : State} (ht : OwnStep s t) (hne : t.outStream ≠ s.outStream) :
    s.phase = .looping ∧ s.sinkReady = true := by
  cases ht with
  | tick hp hs =>
    cases hsend : s.tickSends
    · exact absurd (State.runTick_outStream hsend) hne
    · exact ⟨hp, hs hsend⟩
  | smploop | stopreq | config _ | openDevice _ | init _ | startSampler _ | teardown _ | exit _ =>
    exact absurd (by simp) hne

/-- Only `INIT` writes `INITED`, in its place, to true; it writes nothing to the stream. -/
theorem OwnStep.inited_changed {s t : State} (ht : OwnStep s t) (hne : t.inited ≠ s.inited) :
    s.phase = .awaitInit ∧ t.inited = true ∧ t.outStream = s.outStream := by
  cases ht with
  | init hp =>
    refine ⟨hp, ?_, by simp⟩
    cases ha : s.deviceAnswer
    · exact absurd (by simp [ha]) hne
    · simp
  | tick _ _ => exact absurd s.runTick_inited hne
  | smploop | stopreq | config _ | openDevice _ | startSampler _ | teardown _ | exit _ =>
    exact absurd (by simp) hne

/-- Settles O59: only the loop sends, and only where the sink may be written to; `INIT` comes before the loop. -/
theorem noFrameBeforeInit : Obligations.NoFrameBeforeInit := by
  intro s t h hn
  rcases h.step_cases hn with ⟨_, _, rfl⟩ | ⟨hr, ht⟩
  · exact ⟨fun hne => absurd rfl hne, fun hne => absurd rfl hne⟩
  · refine ⟨fun hne => ?_, fun hne => ?_⟩
    · obtain ⟨hp, hs⟩ := ht.outStream_changed hne
      exact ⟨hp, hr.2, (State.sinkReady_iff _).1 hs⟩
    · obtain ⟨hp, hi, hstream⟩ := ht.inited_changed hne
      have hp : s.phase = .awaitInit := hp
      obtain ⟨hempty, _⟩ := h.noFrameYet (by rw [hp]; rfl)
      exact ⟨hi, h.deviceRun (.inr (.inl hp)), hempty, hstream.trans hempty⟩

end Sys2Proof.Machine

/-! SUPPORT. An operation in two states that differ in the load cell only: every update but the tick of CpuLoad and the
sampler's own does the same in both. -/

namespace Sys2Proof.Machine

/-! The same operation in two states. -/

/-- An operation of the render agent in a second state, which can move where the first can. -/
theorem asRender_transfer {s s' t t' : State} {o o' : StepOutcome} (hr : s.Ready → s'.Ready)
    (ho : o = .next t → o' = .next t') (h : asRender s o = .next t) : asRender s' o' = .next t' :=
  have ⟨h1, h2⟩ := asRender_eq_next.1 h
  asRender_eq_next.2 ⟨hr h1, ho h2⟩

/-- An operation that may send, in a second state, which may send where the first may. -/
theorem guardSend_transfer {s s' t t' : State} {sends sends' : Bool} {r r' : Refusal} {o o' : StepOutcome}
    (hs : (sends = true → s.sinkReady = true) → (sends' = true → s'.sinkReady = true))
    (ho : o = .next t → o' = .next t') (h : guardSend sends r s o = .next t) :
    guardSend sends' r' s' o' = .next t' :=
  have ⟨h1, h2⟩ := guardSend_eq_next.1 h
  guardSend_eq_next.2 ⟨hs h1, ho h2⟩

/-! The load cell. -/

theorem State.sendFrame_load (r g b p : Nat) (s : State) :
    ({ s with smoothedLoad := p } : State).sendFrame r g b = { s.sendFrame r g b with smoothedLoad := p } := by
  unfold State.sendFrame
  split
  · rw [State.sendFrameSim_eq, State.sendFrameSim_eq]
    rfl
  · rw [show ({ s with smoothedLoad := p } : State).sinkAnswer = s.sinkAnswer from rfl]
    cases s.sinkAnswer with
    | ok =>
      rw [State.sendFrameWith_ok, State.sendFrameWith_ok]
      rfl
    | fail n =>
      rw [State.sendFrameWith_fail, State.sendFrameWith_fail]
      rfl

theorem State.sendStatic_load (following : StPhase) (p : Nat) (s : State) :
    ({ s with smoothedLoad := p } : State).sendStatic following =
      { s.sendStatic following with smoothedLoad := p } := by
  rw [State.sendStatic_eq, State.sendStatic_eq, State.sendFrame_load]
  dsimp only
  split <;> rfl

theorem State.staticStep_load (p : Nat) (s : State) :
    ({ s with smoothedLoad := p } : State).staticStep = { s.staticStep with smoothedLoad := p } := by
  unfold State.staticStep
  dsimp only
  split
  · exact State.sendStatic_load _ p s
  · rfl
  · exact State.sendStatic_load _ p s
  · rfl

/-- In every mode but CpuLoad a tick has the same frame and the same effect whatever the load cell holds. -/
theorem State.tick_load {s : State} (hm : s.mode ≠ .cpuLoad) (p : Nat) :
    ({ s with smoothedLoad := p } : State).tickFrame = s.tickFrame ∧
      ({ s with smoothedLoad := p } : State).tickState.debugTick =
        { s.tickState.debugTick with smoothedLoad := p } := by
  unfold State.tickFrame State.tickState
  dsimp only
  split
  case h_1 h => exact absurd h hm
  all_goals exact ⟨rfl, rfl⟩

theorem State.runTick_load {s : State} (hm : s.mode ≠ .cpuLoad) (p : Nat) :
    ({ s with smoothedLoad := p } : State).runTick = { s.runTick with smoothedLoad := p } := by
  obtain ⟨hframe, hstate⟩ := State.tick_load hm p
  unfold State.runTick
  rw [hframe, hstate, State.staticStep_load, State.sendFrame_load]
  dsimp only
  split_ifs <;> rfl

theorem State.configure_load (c : ConfigRecord) (p : Nat) (s : State) :
    ({ s with smoothedLoad := p } : State).configure c = { s.configure c with smoothedLoad := p } := by
  unfold State.configure
  split
  · rfl
  · rw [State.rejectConfig_eq, State.rejectConfig_eq]

theorem State.initWith_load (answer : Bool) (p : Nat) (s : State) :
    ({ s with smoothedLoad := p } : State).initWith answer = { s.initWith answer with smoothedLoad := p } := by
  cases answer
  · rw [State.initWith_false, State.initWith_false]
  · rw [State.initWith_true, State.initWith_true]

/-- Every operation but the reader of the load cell and its writer does the same whatever the cell holds. -/
theorem exec_load {i : Instr} {s t : State} (p : Nat) (hwriter : i ≠ .smploop) (hreader : i ≠ .tickCpuload)
    (htick : ¬(i = .runtick ∧ s.mode = .cpuLoad)) (h : exec i s = .next t) :
    exec i { s with smoothedLoad := p } = .next { t with smoothedLoad := p } := by
  cases i with
  | smploop => exact absurd rfl hwriter
  | tickCpuload => exact absurd rfl hreader
  | decframe bytes => cases h; rfl
  | encbit b =>
    refine asRender_transfer id ?_ h
    rintro ⟨⟩
    simp only [State.encBit_eq]
  | encbyte v =>
    refine asRender_transfer id ?_ h
    rintro ⟨⟩
    simp only [State.encByte_eq]
  | encframe r g b =>
    refine asRender_transfer id ?_ h
    rintro ⟨⟩
    simp only [State.encFrame_eq]
  | sendframe r g b =>
    refine asRender_transfer id (guardSend_transfer id ?_) h
    rintro ⟨⟩
    rw [State.sendFrame_load]
  | stepStatic =>
    refine asRender_transfer id (fun ho => ?_) h
    split_ifs at ho with hd
    rw [if_neg hd]
    refine guardSend_transfer id ?_ ho
    rintro ⟨⟩
    rw [State.staticStep_load]
  | sample =>
    obtain ⟨hx, ⟨⟩⟩ := whileRunning_eq_next.1 h
    exact whileRunning_eq_next.2 ⟨hx, rfl⟩
  | config record =>
    refine asRender_transfer id (fun ho => ?_) h
    split_ifs at ho with hp
    rw [if_pos hp]
    cases ho
    rw [State.configure_load]
  | init =>
    refine asRender_transfer id (fun ho => ?_) h
    split_ifs at ho with hs hi
    · cases ho
      rw [if_pos hs]
    · cases ho
      rw [if_neg hs, if_neg hi, ← State.initWith_load]
      rfl
  | runtick =>
    refine asRender_transfer id (guardSend_transfer id ?_) h
    rintro ⟨⟩
    rw [State.runTick_load fun hm => htick ⟨rfl, hm⟩]
  | write bytes =>
    refine asRender_transfer id (fun ho => ?_) h
    split_ifs at ho with hs
    rw [if_neg hs]
    refine guardSend_transfer id ?_ ho
    rintro ⟨⟩
    rfl
  | exit code =>
    obtain ⟨hx, hf, rfl⟩ := exec_exit_eq_next.1 h
    exact exec_exit_eq_next.2 ⟨hx, hf, rfl⟩
  | stopreq =>
    obtain ⟨hx, h⟩ := whileRunning_eq_next.1 h
    refine whileRunning_eq_next.2 ⟨hx, ?_⟩
    split_ifs at h with hf <;> cases h
    · rw [if_pos hf]
    · rw [if_neg hf]
  | setd _ | clkh | clkl | emit | tickCycle | tickPulse | unpack _ | simwrite _ _ | teardown =>
    refine asRender_transfer id ?_ h
    rintro ⟨⟩
    rfl

/-- Settles O52: operation by operation, the load cell is read by none of them. -/
theorem onlyCpuloadReadsTheLoadCell : Obligations.OnlyCpuloadReadsTheLoadCell :=
  fun _ _ _ p hwriter hreader htick h => exec_load p hwriter hreader htick h

end Sys2Proof.Machine

/-! SUPPORT. The stops by name, what can follow a fatal exception, and the debug option. -/

namespace Sys2Proof.Machine

/-! The stops by name. -/

/-- An operation about to send to a device that is not initialised is refused. -/
theorem asRender_guardSend_refused {s : State} (hr : s.Ready) (hsim : s.simulate = false) (hinit : s.inited = false)
    (r : Refusal) (o : StepOutcome) : asRender s (guardSend true r s o) = .refused r := by
  rw [asRender_of_ready hr]
  simp [guardSend, State.sinkReady, hsim, hinit]

theorem State.staticSends_iff (s : State) : s.staticSends = true ↔ s.stPhase = .send1 ∨ s.stPhase = .send2 := by
  simp [State.staticSends]

/-- A `RUNTICK` sends if it runs a tick operation, or a static step that does. -/
theorem State.tickSends_iff (s : State) :
    s.tickSends = true ↔
      (s.mode ≠ .static ∧ s.stop = false) ∨ (s.mode = .static ∧ (s.stPhase = .send1 ∨ s.stPhase = .send2)) := by
  unfold State.tickSends
  split_ifs with hm
  · simp [hm, State.staticSends_iff]
  · simp [hm]

/-- Settles O47: the sends to a device not initialised are stopped by the one guard, the others by their own condition. -/
theorem undescribedUsesStopByName : Obligations.UndescribedUsesStopByName := by
  intro s hr
  refine ⟨fun hsim hinit => ⟨fun hsends => ?_, fun r g b => ?_, fun hsends => ?_, fun bytes => ?_⟩,
    fun hsim bytes => ?_, fun hsim hinit => ?_, fun hp c => ?_⟩
  · rw [exec_runtick, s.tickSends_iff.2 hsends]
    exact asRender_guardSend_refused hr hsim hinit _ _
  · exact asRender_guardSend_refused hr hsim hinit _ _
  · have hd : s.stPhase ≠ .done := by rcases hsends with e | e <;> rw [e] <;> decide
    rw [exec_stepStatic, if_neg hd, s.staticSends_iff.2 hsends]
    exact asRender_guardSend_refused hr hsim hinit _ _
  · rw [exec_write, if_neg (by simp [hsim])]
    exact asRender_guardSend_refused hr hsim hinit _ _
  · rw [exec_write, asRender_of_ready hr, if_pos hsim]
  · rw [exec_init, asRender_of_ready hr, if_neg (by simp [hsim]), if_pos hinit]
  · rw [exec_config, asRender_of_ready hr, if_neg hp]

/-! After a fatal exception. -/

/-- An operation of the render agent has no step after a fatal exception. -/
theorem asRender_ne_next_of_fault {s t : State} {c : FatalCause} (hc : s.fault = some c) {o : StepOutcome}
    (h : asRender s o = .next t) : False := by
  obtain ⟨hr, _⟩ := asRender_eq_next.1 h
  exact hr.fault_ne c hc

theorem State.keepSample_fault (x : Result) (s : State) : (s.keepSample x).fault = s.fault := by
  cases x <;> rfl

/-- Settles O48: an operation of the render agent needs a state without a fault, and the others do not write it. -/
theorem fatalExceptionIsFinal : Obligations.FatalExceptionIsFinal := by
  intro i s t c hc h
  cases i with
  | decframe bytes =>
    cases h
    exact ⟨hc, by simp⟩
  | sample =>
    obtain ⟨_, ⟨⟩⟩ := whileRunning_eq_next.1 h
    exact ⟨hc, by simp⟩
  | smploop =>
    obtain ⟨_, ⟨⟩⟩ := whileRunning_eq_next.1 h
    exact ⟨(State.keepSample_fault _ _).trans hc, by simp⟩
  | stopreq =>
    obtain ⟨_, h⟩ := whileRunning_eq_next.1 h
    rw [if_pos (by simp [hc])] at h
    cases h
    exact ⟨hc, by simp⟩
  | exit code =>
    obtain ⟨_, hcode, rfl⟩ := exec_exit_eq_next.1 h
    cases code
    · exact absurd ⟨by simp [hc], rfl⟩ hcode
    · exact ⟨hc, by simp⟩
  | setd _ | clkh | clkl | emit | encbit _ | encbyte _ | encframe _ _ _ | sendframe _ _ _ | tickCpuload | tickCycle
  | tickPulse | stepStatic | unpack _ | config _ | init | runtick | write _ | simwrite _ _ | teardown =>
    exact (asRender_ne_next_of_fault hc h).elim

/-! The debug option. -/

/-- What the tick of a looping mode adds to what is seen (44_scheduler_and_sink.md R167): one text, or nothing. -/
def State.debugSeen (s : State) : List Event :=
  if s.debug then [.debugText (Config.debugText s.events.length)] else []

theorem State.debugTick_eq (s : State) : s.debugTick = { s with events := s.events ++ s.debugSeen } := by
  unfold State.debugTick State.debugSeen
  split <;> simp

/-- All of it is debug text, at most one, and none without the option. -/
theorem State.debugSeen_isDebugText (s : State) :
    s.debugSeen.filter (!·.isDebugText) = [] ∧ (s.debugSeen.filter Event.isDebugText).length ≤ 1 ∧
      (s.debug = false → s.debugSeen = []) := by
  unfold State.debugSeen
  cases s.debug
  · exact ⟨rfl, Nat.zero_le _, fun _ => rfl⟩
  · exact ⟨rfl, le_refl 1, nofun⟩

/-- An update of `s` gives `t`, and `t'` where the debug option is `d`: they differ in nothing but that option, what was
seen before stays, and what is seen more is no debug text. -/
structure State.SameUnderDebug (s : State) (d : Bool) (t t' : State) : Prop where
  same : t' = { t with debug := d }
  seen : ∃ more, t.events = s.events ++ more ∧ more.any Event.isDebugText = false

/-- An update that is not seen. -/
theorem State.SameUnderDebug.unseen {s t t' : State} {d : Bool} (ht : t' = { t with debug := d })
    (he : t.events = s.events) : s.SameUnderDebug d t t' :=
  ⟨ht, [], by rw [he, List.append_nil], rfl⟩

theorem State.sendFrame_debug (r g b : Nat) (d : Bool) (s : State) :
    s.SameUnderDebug d (s.sendFrame r g b) (({ s with debug := d } : State).sendFrame r g b) := by
  obtain ⟨more, hevents, hmore, hsame⟩ := s.sendFrame_seen r g b d s.events
  rw [← hevents] at hsame
  exact ⟨hsame, more, hevents, hmore⟩

theorem State.sendStatic_debug (following : StPhase) (d : Bool) (s : State) :
    s.SameUnderDebug d (s.sendStatic following) (({ s with debug := d } : State).sendStatic following) := by
  obtain ⟨hsame, hseen⟩ := s.sendFrame_debug (unpackColor s.color).r (unpackColor s.color).g (unpackColor s.color).b d
  rw [State.sendStatic_eq, State.sendStatic_eq, hsame]
  dsimp only
  split
  · exact ⟨rfl, hseen⟩
  · exact ⟨rfl, hseen⟩

theorem State.staticStep_debug (d : Bool) (s : State) :
    s.SameUnderDebug d s.staticStep ({ s with debug := d } : State).staticStep := by
  unfold State.staticStep
  dsimp only
  split
  · exact s.sendStatic_debug _ d
  · exact .unseen rfl rfl
  · exact s.sendStatic_debug _ d
  · exact .unseen rfl rfl

theorem State.initWith_debug (answer d : Bool) (s : State) :
    s.SameUnderDebug d (s.initWith answer) (({ s with debug := d } : State).initWith answer) := by
  cases answer
  · rw [State.initWith_false, State.initWith_false]
    exact ⟨rfl, _, List.append_assoc _ _ _, rfl⟩
  · rw [State.initWith_true, State.initWith_true]
    exact ⟨rfl, _, rfl, rfl⟩

theorem State.keepSample_debug (x : Result) (d : Bool) (s : State) :
    s.SameUnderDebug d (s.keepSample x) (({ s with debug := d } : State).keepSample x) := by
  cases x <;> exact .unseen rfl rfl

/-- An iteration that runs no tick operation does the same whatever the debug option. -/
theorem State.runTick_debug {s : State} (htick : ¬(s.mode ≠ .static ∧ s.stop = false)) (d : Bool) :
    s.SameUnderDebug d s.runTick ({ s with debug := d } : State).runTick := by
  by_cases hm : s.mode = .static
  · obtain ⟨hsame, hseen⟩ := s.staticStep_debug d
    rw [State.runTick_of_static hm, State.runTick_of_static (s := { s with debug := d }) hm, hsame]
    dsimp only
    split
    · exact ⟨rfl, hseen⟩
    · exact ⟨rfl, hseen⟩
  · have hs : s.stop = true := by simpa [hm] using htick
    rw [State.runTick_of_stop hm hs, State.runTick_of_stop (s := { s with debug := d }) hm hs]
    exact .unseen rfl rfl

/-- The tick operation of a mode neither sees nor changes the debug option, and what has been seen. -/
theorem State.tickState_debug (d : Bool) (s : State) :
    ({ s with debug := d } : State).tickState = { s.tickState with debug := d } ∧
      ({ s with debug := d } : State).tickFrame = s.tickFrame ∧ s.tickState.events = s.events := by
  unfold State.tickState State.tickFrame
  dsimp only
  split <;> exact ⟨rfl, rfl, rfl⟩

/-- An iteration that runs a tick operation, with the debug option as it is and with it set to `d`: the two differ in that
option and in the texts seen before the frame is sent. -/
theorem State.runTick_texts {s : State} (hm : s.mode ≠ .static) (hs : s.stop = false) (d : Bool) :
    ∃ more, more.any Event.isDebugText = false ∧
      s.runTick.events = s.events ++ s.tickState.debugSeen ++ more ∧
      ({ s with debug := d } : State).runTick = { s.runTick with
        debug := d
        events := s.events ++ ({ s.tickState with debug := d } : State).debugSeen ++ more } := by
  obtain ⟨hstate, hframe, hevents⟩ := s.tickState_debug d
  have hdebug : ({ s.tickState with debug := d } : State).debugTick = { s.tickState.debugTick with
      debug := d
      events := s.events ++ ({ s.tickState with debug := d } : State).debugSeen } := by
    rw [State.debugTick_eq, State.debugTick_eq, ← hevents]
  obtain ⟨more, hown, hmore, hother⟩ := s.tickState.debugTick.sendFrame_seen s.tickFrame.r s.tickFrame.g s.tickFrame.b d
    (s.events ++ ({ s.tickState with debug := d } : State).debugSeen)
  refine ⟨more, hmore, ?_, ?_⟩
  · rw [State.runTick_of_tick hm hs, hown, State.debugTick_eq, hevents]
  · rw [State.runTick_of_tick hm hs, State.runTick_of_tick (s := { s with debug := d }) hm hs, hstate, hframe, hdebug,
      hother]

/-- Two outcomes, the second where the debug option is `d`, of an operation of which no debug text is seen. -/
def DebugApart (s : State) (d : Bool) (o o' : StepOutcome) : Prop :=
  ∀ t, o = .next t → ∃ t', o' = .next t' ∧ s.SameUnderDebug d t t'

theorem DebugApart.next {s t t' : State} {d : Bool} (h : s.SameUnderDebug d t t') :
    DebugApart s d (.next t) (.next t') := by
  rintro _ ⟨⟩
  exact ⟨t', rfl, h⟩

theorem DebugApart.fault {s : State} {d : Bool} {f : Fault} {o' : StepOutcome} : DebugApart s d (.fault f) o' := by
  rintro _ ⟨⟩

theorem DebugApart.refused {s : State} {d : Bool} {r : Refusal} {o' : StepOutcome} :
    DebugApart s d (.refused r) o' := by
  rintro _ ⟨⟩

theorem DebugApart.guardSend {s : State} {d sends : Bool} {r : Refusal} {o o' : StepOutcome} (h : DebugApart s d o o') :
    DebugApart s d (guardSend sends r s o) (guardSend sends r { s with debug := d } o') := by
  intro t ht
  obtain ⟨hs, ht⟩ := guardSend_eq_next.1 ht
  obtain ⟨t', ho, hsame⟩ := h t ht
  exact ⟨t', guardSend_eq_next.2 ⟨hs, ho⟩, hsame⟩

theorem DebugApart.asRender {s : State} {d : Bool} {o o' : StepOutcome} (h : DebugApart s d o o') :
    DebugApart s d (asRender s o) (asRender { s with debug := d } o') := by
  intro t ht
  obtain ⟨hr, ht⟩ := asRender_eq_next.1 ht
  obtain ⟨t', ho, hsame⟩ := h t ht
  exact ⟨t', asRender_eq_next.2 ⟨hr, ho⟩, hsame⟩

theorem DebugApart.whileRunning {s : State} {d : Bool} {o o' : StepOutcome} (h : DebugApart s d o o') :
    DebugApart s d (whileRunning s o) (whileRunning { s with debug := d } o') := by
  intro t ht
  obtain ⟨hx, ht⟩ := whileRunning_eq_next.1 ht
  obtain ⟨t', ho, hsame⟩ := h t ht
  exact ⟨t', whileRunning_eq_next.2 ⟨hx, ho⟩, hsame⟩

/-- Every operation but `CONFIG`, which writes the debug option, and a `RUNTICK` that runs a tick operation does the same
whatever the debug option is, and no debug text is seen of it. -/
theorem exec_debugApart {i : Instr} {s : State} (d : Bool) (hconfig : ∀ c, i ≠ .config c)
    (htick : ¬(i = .runtick ∧ s.mode ≠ .static ∧ s.stop = false)) :
    DebugApart s d (exec i s) (exec i { s with debug := d }) := by
  cases i with
  | config c => exact absurd rfl (hconfig c)
  | decframe bytes => exact .next (.unseen rfl rfl)
  | encbit b =>
    refine .asRender (.next ?_)
    simp only [State.encBit_eq]
    exact .unseen rfl rfl
  | encbyte v =>
    refine .asRender (.next ?_)
    simp only [State.encByte_eq]
    exact .unseen rfl rfl
  | encframe r g b =>
    refine .asRender (.next ?_)
    simp only [State.encFrame_eq]
    exact .unseen rfl rfl
  | sendframe r g b => exact .asRender (.guardSend (.next (s.sendFrame_debug r g b d)))
  | stepStatic =>
    refine .asRender ?_
    dsimp only
    split
    · exact .fault
    · exact .guardSend (.next (s.staticStep_debug d))
  | sample => exact .whileRunning (.next (.unseen rfl rfl))
  | smploop =>
    obtain ⟨hsame, hseen⟩ := s.afterMetricAnswer.keepSample_debug (sampleResult s.metricAnswer) d
    exact .whileRunning (.next ⟨hsame, hseen⟩)
  | init =>
    refine .asRender ?_
    have hafter : ({ s with debug := d } : State).afterDeviceAnswer = { s.afterDeviceAnswer with debug := d } := rfl
    have hanswer : ({ s with debug := d } : State).deviceAnswer = s.deviceAnswer := rfl
    rw [hafter, hanswer]
    dsimp only
    split_ifs
    · exact .next (.unseen rfl rfl)
    · exact .refused
    · obtain ⟨hsame, hseen⟩ := s.afterDeviceAnswer.initWith_debug s.deviceAnswer d
      exact .next ⟨hsame, hseen⟩
  | runtick => exact .asRender (.guardSend (.next (State.runTick_debug (fun h => htick ⟨rfl, h⟩) d)))
  | write bytes =>
    refine .asRender ?_
    dsimp only
    split_ifs
    · exact .refused
    · exact .guardSend (.next ⟨rfl, _, rfl, rfl⟩)
  | simwrite bytes t => exact .asRender (.next ⟨rfl, _, rfl, rfl⟩)
  | teardown =>
    refine .asRender (.next ⟨rfl, ?_⟩)
    rw [State.tornDown_events]
    split
    · exact ⟨[], (List.append_nil _).symm, rfl⟩
    · exact ⟨_, rfl, rfl⟩
  | exit code =>
    intro t ht
    obtain ⟨hx, hf, rfl⟩ := exec_exit_eq_next.1 ht
    exact ⟨_, exec_exit_eq_next.2 ⟨hx, hf, rfl⟩, rfl, _, rfl, rfl⟩
  | stopreq =>
    refine .whileRunning ?_
    dsimp only
    split
    · exact .next (.unseen rfl rfl)
    · exact .next (.unseen rfl rfl)
  | setd _ | clkh | clkl | emit | tickCpuload | tickCycle | tickPulse | unpack _ =>
    exact .asRender (.next (.unseen rfl rfl))

/-- Settles O41: of a `RUNTICK` that runs a tick operation the texts of the two options are seen before its frame; of every
other operation no text is seen. -/
theorem debugChangesOnlyTheText : Obligations.DebugChangesOnlyTheText := by
  intro i s t d hconfig h
  by_cases htick : i = .runtick ∧ s.mode ≠ .static ∧ s.stop = false
  · obtain ⟨rfl, hm, hs⟩ := htick
    obtain ⟨hr, h⟩ := asRender_eq_next.1 h
    obtain ⟨hsink, ⟨⟩⟩ := guardSend_eq_next.1 h
    obtain ⟨more, hmore, hown, hother⟩ := State.runTick_texts hm hs d
    obtain ⟨hownText, _, _⟩ := s.tickState.debugSeen_isDebugText
    obtain ⟨hotherText, hotherOne, hotherNone⟩ := ({ s.tickState with debug := d } : State).debugSeen_isDebugText
    have hnone : more.filter Event.isDebugText = [] := by simpa using hmore
    refine ⟨({ s.tickState with debug := d } : State).debugSeen ++ more, ?_, ?_, ?_, fun hany => ?_⟩
    · rw [← List.append_assoc, ← hother]
      exact asRender_eq_next.2 ⟨hr, guardSend_eq_next.2 ⟨hsink, rfl⟩⟩
    · rw [hown]
      simp only [List.filter_append, hownText, hotherText, List.append_nil, List.nil_append]
    · rw [List.filter_append, hnone, List.append_nil]
      exact hotherOne
    · refine ⟨?_, rfl, hm, hs⟩
      by_contra hd
      rw [hotherNone (Bool.eq_false_of_not_eq_true hd), List.nil_append, hmore] at hany
      cases hany
  · obtain ⟨t', h', rfl, more, hseen, hmore⟩ := exec_debugApart d hconfig htick t h
    have hnone : more.filter Event.isDebugText = [] := by simpa using hmore
    refine ⟨more, ?_, by rw [hseen], ?_, fun hany => ?_⟩
    · rw [h', ← hseen]
    · rw [hnone]
      exact Nat.zero_le _
    · rw [hmore] at hany
      cases hany

end Sys2Proof.Machine

/-! SUPPORT. What operations append to `OUTSTREAM` (20_memory.md R41): a transaction of the frame encoder one whole frame,
or on a `WriteFailure` a part of one; the sink writes their own bytes; every other operation nothing. -/

namespace Sys2Proof.Machine

/-! Growth by a frame. -/

/-- `t` has the stream of `s` with at most 72 bytes more, and with a whole frame or nothing more unless `FAULT` is set. -/
def State.GrowsByFrame (s t : State) : Prop :=
  ∃ sent, t.outStream = s.outStream ++ sent ∧ sent.length ≤ 72 ∧
    (t.fault = none → sent.length = 0 ∨ sent.length = 72)

theorem State.GrowsByFrame.of_unchanged {s t : State} (h : t.outStream = s.outStream) : s.GrowsByFrame t :=
  ⟨[], by rw [h, List.append_nil], Nat.zero_le _, fun _ => .inl rfl⟩

/-- Growth by a frame is about the stream before, and the stream and `FAULT` after, and about nothing else. -/
theorem State.GrowsByFrame.congr {s s' t t' : State} (h : s.GrowsByFrame t) (hs : s'.outStream = s.outStream)
    (ht : t'.outStream = t.outStream) (hf : t'.fault = t.fault) : s'.GrowsByFrame t' := by
  obtain ⟨sent, hsent, hlen, hwhole⟩ := h
  exact ⟨sent, by rw [ht, hs, hsent], hlen, fun hn => hwhole (hf ▸ hn)⟩

/-- A frame that the sink takes is appended whole; of one that fails at most its 72 bytes are. -/
theorem State.growsByFrame_sendFrame (r g b : Nat) (s : State) : s.GrowsByFrame (s.sendFrame r g b) := by
  rcases s.sendFrame_cases r g b with ⟨_, e⟩ | ⟨_, _, e⟩ | ⟨_, n, _, e⟩ <;> rw [e]
  · rw [State.sendFrameSim_eq]
    exact ⟨_, rfl, (s.frameBytes_length r g b).le, fun _ => .inr (s.frameBytes_length r g b)⟩
  · rw [State.sendFrameWith_ok]
    have hlen := s.afterSinkAnswer.frameBytes_length r g b
    exact ⟨_, rfl, hlen.le, fun _ => .inr hlen⟩
  · rw [State.sendFrameWith_fail]
    have hlen := s.afterSinkAnswer.frameBytes_length r g b
    exact ⟨_, rfl, (List.length_take_le' _ _).trans hlen.le, nofun⟩

theorem State.growsByFrame_sendStatic (following : StPhase) (s : State) : s.GrowsByFrame (s.sendStatic following) := by
  have hsend := s.growsByFrame_sendFrame (unpackColor s.color).r (unpackColor s.color).g (unpackColor s.color).b
  rw [State.sendStatic_eq]
  split
  · exact hsend
  · exact hsend.congr rfl rfl rfl

theorem State.growsByFrame_staticStep (s : State) : s.GrowsByFrame s.staticStep := by
  unfold State.staticStep
  split
  case h_1 | h_3 => exact s.growsByFrame_sendStatic _
  case h_2 | h_4 => exact .of_unchanged rfl

theorem State.tickState_outStream (s : State) : s.tickState.outStream = s.outStream := by
  unfold State.tickState
  split <;> rfl

theorem State.growsByFrame_runTick (s : State) : s.GrowsByFrame s.runTick := by
  rcases s.runTick_cases with ⟨_, _, e⟩ | ⟨_, _, e⟩ | ⟨_, _, e⟩ | ⟨_, _, e⟩ <;> rw [e]
  · exact s.growsByFrame_staticStep.congr rfl (State.leaveLoop_outStream _) (State.leaveLoop_fault _)
  · exact s.growsByFrame_staticStep
  · exact .of_unchanged (State.leaveLoop_outStream s)
  · have hbefore : s.tickState.debugTick.outStream = s.outStream :=
      (State.debugTick_outStream _).trans s.tickState_outStream
    exact (State.growsByFrame_sendFrame _ _ _ _).congr hbefore.symm rfl rfl

/-! Operation by operation. -/

/-- The operations that send a frame of their own making (44_scheduler_and_sink.md R172). -/
def SendsFrame (i : Instr) : Prop := i = .runtick ∨ i = .stepStatic ∨ ∃ r g b, i = .sendframe r g b

theorem exec_growsByFrame {i : Instr} {s t : State} (hi : SendsFrame i) (h : exec i s = .next t) :
    s.GrowsByFrame t := by
  rcases hi with rfl | rfl | ⟨r, g, b, rfl⟩
  · obtain ⟨_, h⟩ := asRender_eq_next.1 h
    obtain ⟨_, ⟨⟩⟩ := guardSend_eq_next.1 h
    exact s.growsByFrame_runTick
  · obtain ⟨_, h⟩ := asRender_eq_next.1 h
    split_ifs at h
    obtain ⟨_, ⟨⟩⟩ := guardSend_eq_next.1 h
    exact s.growsByFrame_staticStep
  · obtain ⟨_, h⟩ := asRender_eq_next.1 h
    obtain ⟨_, ⟨⟩⟩ := guardSend_eq_next.1 h
    exact s.growsByFrame_sendFrame r g b

/-- A `WRITE` appends the bytes that reached the sink (44_scheduler_and_sink.md R165). -/
theorem exec_write_outStream {bytes : List Byte} {s t : State} (h : exec (.write bytes) s = .next t) :
    t.outStream = s.outStream ++ deliveredBytes bytes s.sinkAnswer := by
  obtain ⟨_, h⟩ := asRender_eq_next.1 h
  split_ifs at h
  obtain ⟨_, ⟨⟩⟩ := guardSend_eq_next.1 h
  rfl

/-- A `SIMWRITE` appends its bytes (44_scheduler_and_sink.md R166). -/
theorem exec_simwrite_outStream {bytes : List Byte} {c : Rgb} {s t : State}
    (h : exec (.simwrite bytes c) s = .next t) : t.outStream = s.outStream ++ bytes := by
  obtain ⟨_, ⟨⟩⟩ := asRender_eq_next.1 h
  rfl

@[simp] theorem State.encBit_outStream (b : Bool) (s : State) : (s.encBit b).outStream = s.outStream := by
  rw [State.encBit_eq]

@[simp] theorem State.encByte_outStream (v : Byte) (s : State) : (s.encByte v).outStream = s.outStream := by
  rw [State.encByte_eq]

@[simp] theorem State.encFrame_outStream (r g b : Nat) (s : State) : (s.encFrame r g b).outStream = s.outStream := by
  rw [State.encFrame_eq]

/-- An operation that neither sends a frame nor writes to a sink leaves the stream as it was. -/
theorem exec_outStream_unchanged {i : Instr} {s t : State} (hframe : ¬SendsFrame i) (hwrite : ∀ x, i ≠ .write x)
    (hsim : ∀ x y, i ≠ .simwrite x y) (h : exec i s = .next t) : t.outStream = s.outStream := by
  cases i with
  | runtick => exact absurd (.inl rfl) hframe
  | stepStatic => exact absurd (.inr (.inl rfl)) hframe
  | sendframe r g b => exact absurd (.inr (.inr ⟨r, g, b, rfl⟩)) hframe
  | write bytes => exact absurd rfl (hwrite bytes)
  | simwrite bytes c => exact absurd rfl (hsim bytes c)
  | decframe bytes => cases h; rfl
  | sample => obtain ⟨_, ⟨⟩⟩ := whileRunning_eq_next.1 h; rfl
  | smploop => obtain ⟨_, ⟨⟩⟩ := whileRunning_eq_next.1 h; simp
  | config record =>
    obtain ⟨_, h⟩ := asRender_eq_next.1 h
    split_ifs at h
    cases h
    exact State.configure_outStream record s
  | init =>
    obtain ⟨_, h⟩ := asRender_eq_next.1 h
    split_ifs at h <;> cases h
    · rfl
    · exact State.initWith_outStream _ _
  | exit code =>
    obtain ⟨_, _, rfl⟩ := exec_exit_eq_next.1 h
    rfl
  | stopreq =>
    obtain ⟨_, h⟩ := whileRunning_eq_next.1 h
    split_ifs at h <;> cases h <;> rfl
  | setd _ | clkh | clkl | emit | encbit _ | encbyte _ | encframe _ _ _ | tickCpuload | tickCycle | tickPulse
  | unpack _ | teardown =>
    obtain ⟨_, ⟨⟩⟩ := asRender_eq_next.1 h
    simp

/-- Settles O51: an operation sends a frame, and grows the stream by it; or is one of the two sink writes, which append
their bytes; or leaves the stream as it was. -/
theorem outstreamGrowsByWholeFrames : Obligations.OutstreamGrowsByWholeFrames := by
  intro i s t h
  by_cases hframe : SendsFrame i
  · obtain ⟨sent, hsent, hlen, hwhole⟩ := exec_growsByFrame hframe h
    exact ⟨sent, hsent, fun _ => hframe.imp_right (.imp_right .inl), fun _ => ⟨hlen, hwhole⟩⟩
  · by_cases hwrite : ∃ x, i = .write x
    · obtain ⟨bytes, rfl⟩ := hwrite
      exact ⟨_, exec_write_outStream h, fun _ => .inr (.inr (.inr (.inl ⟨bytes, rfl⟩))), fun hi => absurd hi hframe⟩
    · by_cases hsim : ∃ x y, i = .simwrite x y
      · obtain ⟨bytes, c, rfl⟩ := hsim
        exact ⟨_, exec_simwrite_outStream h, fun _ => .inr (.inr (.inr (.inr ⟨bytes, c, rfl⟩))),
          fun hi => absurd hi hframe⟩
      · have hsame := exec_outStream_unchanged hframe (fun x e => hwrite ⟨x, e⟩) (fun x y e => hsim ⟨x, y, e⟩) h
        exact ⟨[], by rw [hsame, List.append_nil], fun hn => absurd rfl hn, fun hi => absurd hi hframe⟩

end Sys2Proof.Machine

/-! SUPPORT. The encoding in the other direction (log 16): what a reader of operands takes off the front of bytes is
what the encoder of that operand writes, so bytes decode to an operation exactly when they begin with its own bytes. -/

namespace Sys2Proof

/-! Natural numbers, seven bits a byte. -/

/-- Any two fuels above the number write the same bytes. -/
theorem natBytesFrom_fuel {f g n : Nat} (hf : n < f) (hg : n < g) : natBytesFrom f n = natBytesFrom g n := by
  induction f generalizing g n with
  | zero => omega
  | succ f ih =>
    cases g with
    | zero => omega
    | succ g =>
      simp only [natBytesFrom]
      split
      · rfl
      · rw [ih (g := g) (by omega) (by omega)]

theorem natBytes_of_lt {n : Nat} (h : n < 128) : natBytes n = [BitVec.ofNat 8 n] := by
  rw [natBytes, natBytesFrom, if_pos h]

theorem natBytes_of_ge {n : Nat} (h : 128 ≤ n) : natBytes n = BitVec.ofNat 8 (128 + n % 128) :: natBytes (n / 128) := by
  rw [natBytes, natBytesFrom, if_neg (by omega), natBytesFrom_fuel (g := n / 128 + 1) (by omega) (by omega)]
  rfl

/-- A number has one form: a byte with bit 7 set is followed by a number that is not 0. -/
theorem natBytes_of_readNat {bytes rest : List Byte} {n : Nat} (h : readNat bytes = some (n, rest)) :
    bytes = natBytes n ++ rest := by
  induction bytes generalizing n with
  | nil => cases h
  | cons b bytes ih =>
    have hb : b.toNat < 256 := b.isLt
    rw [readNat] at h
    split at h
    case isTrue hlt =>
      cases h
      rw [natBytes_of_lt hlt, BitVec.ofNat_toNat, BitVec.setWidth_eq, List.singleton_append]
    case isFalse hge =>
      split at h
      case h_1 => cases h
      case h_2 high rest' hhigh =>
        split at h
        case isTrue => cases h
        case isFalse hne =>
          cases h
          have hlow : 128 + (b.toNat - 128 + 128 * high) % 128 = b.toNat := by omega
          have hrest : (b.toNat - 128 + 128 * high) / 128 = high := by omega
          have hbig : 128 ≤ b.toNat - 128 + 128 * high := by
            have : high ≠ 0 := hne
            omega
          rw [natBytes_of_ge hbig, hlow, hrest, BitVec.ofNat_toNat, BitVec.setWidth_eq, ih hhigh, List.cons_append]

/-! What a reader takes. -/

theorem readNat_eq_some {bytes rest : List Byte} {n : Nat} :
    readNat bytes = some (n, rest) ↔ bytes = natBytes n ++ rest :=
  ⟨natBytes_of_readNat, fun h => h ▸ readNat_natBytes n rest⟩

theorem readBit_eq_some {bytes rest : List Byte} {b : Bool} :
    readBit bytes = some (b, rest) ↔ bytes = bitByte b :: rest := by
  refine ⟨fun h => ?_, fun h => h ▸ readBit_bitByte b rest⟩
  cases bytes with
  | nil => cases h
  | cons x xs =>
    rw [readBit] at h
    split_ifs at h with h0 h1 <;> cases h
    · rw [h0]; rfl
    · rw [h1]; rfl

theorem readBytes_eq_some {n : Nat} {bytes taken rest : List Byte} :
    readBytes n bytes = some (taken, rest) ↔ taken.length = n ∧ bytes = taken ++ rest := by
  refine ⟨fun h => ?_, fun ⟨hn, h⟩ => hn ▸ h ▸ readBytes_append taken rest⟩
  induction n generalizing bytes taken with
  | zero => cases h; exact ⟨rfl, rfl⟩
  | succ n ih =>
    cases bytes with
    | nil => cases h
    | cons x xs =>
      rw [readBytes] at h
      split at h
      case h_1 => cases h
      case h_2 taken' rest' htaken =>
        cases h
        obtain ⟨hlen, hxs⟩ := ih htaken
        exact ⟨congrArg Nat.succ hlen, congrArg (List.cons x) hxs⟩

theorem readSequence_eq_some {bytes taken rest : List Byte} :
    readSequence bytes = some (taken, rest) ↔ bytes = natBytes taken.length ++ (taken ++ rest) := by
  refine ⟨fun h => ?_, fun h => h ▸ readSequence_append taken rest⟩
  rw [readSequence] at h
  split at h
  case h_1 => cases h
  case h_2 n rest' hn =>
    obtain ⟨hlen, hrest⟩ := readBytes_eq_some.1 h
    rw [hlen, ← hrest]
    exact readNat_eq_some.1 hn

theorem readTriple_eq_some {bytes rest : List Byte} {r g b : Nat} :
    readTriple bytes = some ((r, g, b), rest) ↔ bytes = natBytes r ++ (natBytes g ++ (natBytes b ++ rest)) := by
  refine ⟨fun h => ?_, fun h => h ▸ readTriple_natBytes r g b rest⟩
  simp only [readTriple, Option.bind_eq_bind, Option.bind_eq_some_iff, Prod.exists, readNat_eq_some] at h
  obtain ⟨r', _, rfl, g', _, rfl, b', _, rfl, h⟩ := h
  cases h
  rfl

theorem readRgb_eq_some {bytes rest : List Byte} {t : Rgb} :
    readRgb bytes = some (t, rest) ↔ bytes = t.r :: t.g :: t.b :: rest := by
  refine ⟨fun h => ?_, fun h => h ▸ rfl⟩
  unfold readRgb at h
  split at h <;> cases h
  rfl

theorem colorBytes_append (r g b : Byte) : colorBytes (r ++ g ++ b) = [r, g, b] := by
  have hr : @BitVec.extractLsb' (8 + 8 + 8) 16 8 (r ++ g ++ b) = r :=
    (BitVec.extractLsb'_append_eq_of_le (by omega)).trans BitVec.extractLsb'_append_eq_left
  have hg : @BitVec.extractLsb' (8 + 8 + 8) 8 8 (r ++ g ++ b) = g :=
    (BitVec.extractLsb'_append_eq_of_le (by omega)).trans BitVec.extractLsb'_append_eq_right
  have hb : @BitVec.extractLsb' (8 + 8 + 8) 0 8 (r ++ g ++ b) = b := BitVec.extractLsb'_append_eq_right
  exact List.cons_eq_cons.2 ⟨hr, List.cons_eq_cons.2 ⟨hg, List.cons_eq_cons.2 ⟨hb, rfl⟩⟩⟩

theorem append_colorBytes (c : BitVec 24) :
    c.extractLsb' 16 8 ++ c.extractLsb' 8 8 ++ c.extractLsb' 0 8 = c := by
  rw [BitVec.extractLsb'_append_extractLsb'_eq_extractLsb' (by rfl),
    BitVec.extractLsb'_append_extractLsb'_eq_extractLsb' (by rfl)]
  exact BitVec.extractLsb'_eq_self

theorem readColor_colorBytes (c : BitVec 24) (rest : List Byte) : readColor (colorBytes c ++ rest) = some (c, rest) :=
  congrArg (fun x => some (x, rest)) (append_colorBytes c)

theorem readColor_eq_some {bytes rest : List Byte} {c : BitVec 24} :
    readColor bytes = some (c, rest) ↔ bytes = colorBytes c ++ rest := by
  refine ⟨fun h => ?_, fun h => h ▸ readColor_colorBytes c rest⟩
  unfold readColor at h
  split at h <;> cases h
  rw [colorBytes_append]
  rfl

theorem readExitCode_eq_some {bytes rest : List Byte} {e : ExitCode} :
    readExitCode bytes = some (e, rest) ↔ bytes = exitCodeByte e :: rest := by
  constructor
  · intro h
    cases bytes with
    | nil => cases h
    | cons x xs =>
      rw [readExitCode] at h
      split_ifs at h with h0 h1 <;> cases h
      · rw [h0]; rfl
      · rw [h1]; rfl
  · rintro rfl
    cases e <;> rfl

theorem readModeField_eq_some {bytes rest : List Byte} {x : Supplied Mode} :
    readModeField bytes = some (x, rest) ↔ bytes = modeFieldBytes x ++ rest := by
  refine ⟨fun h => ?_, fun h => h ▸ readModeField_bytes x rest⟩
  cases bytes with
  | nil => cases h
  | cons b bs =>
    rw [readModeField] at h
    split_ifs at h with hb hb hb hb hb hb <;> cases h <;> rw [hb] <;> rfl

theorem readNatField_eq_some {bytes rest : List Byte} {x : Supplied Nat} :
    readNatField bytes = some (x, rest) ↔ bytes = natFieldBytes x ++ rest := by
  refine ⟨fun h => ?_, fun h => h ▸ readNatField_bytes x rest⟩
  cases bytes with
  | nil => cases h
  | cons b bs =>
    rw [readNatField] at h
    split_ifs at h with hb hb hb
    · cases h; rw [hb]; rfl
    · split at h
      case h_1 => cases h
      case h_2 n rest' hn =>
        cases h
        rw [hb, readNat_eq_some.1 hn]
        rfl
    · cases h; rw [hb]; rfl

theorem readBoolOption_eq_some {bytes rest : List Byte} {x : Supplied Bool} :
    readBoolOption bytes = some (x, rest) ↔ bytes = boolOptionByte x :: rest := by
  refine ⟨fun h => ?_, fun h => h ▸ readBoolOption_byte x rest⟩
  cases bytes with
  | nil => cases h
  | cons b bs =>
    rw [readBoolOption] at h
    split_ifs at h with hb hb hb hb <;> cases h <;> rw [hb] <;> rfl

theorem readRecord_eq_some {bytes rest : List Byte} {c : ConfigRecord} :
    readRecord bytes = some (c, rest) ↔ bytes = recordBytes c ++ rest := by
  refine ⟨fun h => ?_, fun h => h ▸ readRecord_bytes c rest⟩
  simp only [readRecord, Option.bind_eq_bind, Option.bind_eq_some_iff, Prod.exists, readModeField_eq_some,
    readNatField_eq_some, readBoolOption_eq_some, readBit_eq_some] at h
  obtain ⟨mode, _, rfl, speed, _, rfl, color, _, rfl, beat, _, rfl, throb, _, rfl, simulate, _, rfl, debug, _, rfl,
    unknown, _, rfl, h⟩ := h
  cases h
  simp [recordBytes]

/-! Operations. -/

theorem wholeTransaction_iff (bytes : List Byte) : wholeTransaction bytes = true ↔ bytes.length = 72 := by
  simp [wholeTransaction]

/-- The operands that a code reads are those of an operation with that code. -/
theorem operandBytes_of_readOperands {code : Nat} {bytes rest : List Byte} {i : Instr}
    (h : readOperands code bytes = some (some (i, rest))) :
    i.wellFormed = true ∧ i.opcode.toNat = code ∧ bytes = i.operandBytes ++ rest := by
  unfold readOperands at h
  split at h
  all_goals
    simp only [reduceCtorEq, Option.some.injEq, Prod.mk.injEq, Option.map_eq_some_iff, Prod.exists, Option.bind_eq_bind,
      Option.bind_eq_some_iff, readBit_eq_some, readNat_eq_some, readTriple_eq_some, readSequence_eq_some,
      readColor_eq_some, readRecord_eq_some, readBytes_eq_some, readRgb_eq_some, readExitCode_eq_some] at h
  -- one operand: a bit, a number, a sequence, a colour word, a record, an exit code
  case h_1 | h_5 | h_6 | h_9 | h_14 | h_17 | h_23 =>
    obtain ⟨_, _, rfl, rfl, rfl⟩ := h
    exact ⟨rfl, rfl, by simp [Instr.operandBytes]⟩
  -- `ENCFRAME`, `SENDFRAME`
  case h_7 | h_8 =>
    obtain ⟨_, _, _, _, rfl, rfl, rfl⟩ := h
    exact ⟨rfl, rfl, by simp [Instr.operandBytes]⟩
  -- `WRITE`
  case h_20 =>
    obtain ⟨_, _, ⟨hlen, rfl⟩, rfl, rfl⟩ := h
    exact ⟨(wholeTransaction_iff _).2 hlen, rfl, rfl⟩
  -- `SIMWRITE`
  case h_21 =>
    obtain ⟨_, _, ⟨hlen, rfl⟩, _, _, rfl, rfl, rfl⟩ := h
    exact ⟨(wholeTransaction_iff _).2 hlen, rfl, by simp [Instr.operandBytes]⟩
  -- no operands
  all_goals
    obtain ⟨rfl, rfl⟩ := h
    exact ⟨rfl, rfl, rfl⟩

/-- The operands of a well-formed operation are read back under its code. -/
theorem readOperands_operandBytes {i : Instr} (h : i.wellFormed = true) (rest : List Byte) :
    readOperands i.opcode.toNat (i.operandBytes ++ rest) = some (some (i, rest)) := by
  have whole {bytes : List Byte} (hlen : wholeTransaction bytes = true) (more : List Byte) :
      readBytes 72 (bytes ++ more) = some (bytes, more) :=
    readBytes_eq_some.2 ⟨(wholeTransaction_iff bytes).1 hlen, rfl⟩
  cases i with
  | setd b | encbit b => simp [readOperands, Instr.opcode, Instr.operandBytes, readBit_bitByte]
  | encbyte v => simp [readOperands, Instr.opcode, Instr.operandBytes, readNat_natBytes]
  | encframe r g b | sendframe r g b => simp [readOperands, Instr.opcode, Instr.operandBytes, readTriple_natBytes]
  | decframe bytes => simp [readOperands, Instr.opcode, Instr.operandBytes, readSequence_append]
  | unpack c => simp [readOperands, Instr.opcode, Instr.operandBytes, readColor_colorBytes]
  | config c => simp [readOperands, Instr.opcode, Instr.operandBytes, readRecord_bytes]
  | write bytes => simp [readOperands, Instr.opcode, Instr.operandBytes, whole h]
  | simwrite bytes t => simp [readOperands, Instr.opcode, Instr.operandBytes, whole h, readRgb]
  | exit e => cases e <;> rfl
  | clkh | clkl | emit | tickCpuload | tickCycle | tickPulse | stepStatic | sample | smploop | init | runtick
  | teardown | stopreq => rfl

/-- Bytes decode to an operation exactly when it is well formed and they begin with its bytes. -/
theorem decode_eq_ok {bytes rest : List Byte} {i : Instr} :
    decode bytes = .ok (i, rest) ↔ i.wellFormed = true ∧ bytes = encode i ++ rest := by
  constructor
  · intro h
    cases bytes with
    | nil => cases h
    | cons code operands =>
      rw [decode] at h
      split at h <;> cases h
      case h_3 hread =>
        obtain ⟨hwf, hcode, rfl⟩ := operandBytes_of_readOperands hread
        rw [← BitVec.eq_of_toNat_eq hcode]
        exact ⟨hwf, rfl⟩
  · rintro ⟨hwf, rfl⟩
    rw [encode, List.cons_append, decode, readOperands_operandBytes hwf]

/-- The codes that name no operation (30_encoding.md R70). -/
theorem readOperands_eq_none {code : Nat} {bytes : List Byte} :
    readOperands code bytes = none ↔
      code ∉ [0x01, 0x02, 0x03, 0x04, 0x08, 0x09, 0x10, 0x11, 0x12, 0x20, 0x21, 0x22, 0x23, 0x24, 0x30, 0x31,
        0x40, 0x41, 0x42, 0x43, 0x44, 0x45, 0x46, 0x47] := by
  unfold readOperands
  split
  case h_25 =>
    simp only [List.mem_cons, List.not_mem_nil, or_false, not_or, true_iff]
    and_intros <;> assumption
  all_goals simp

theorem decode_eq_noSuchOperation {code : Byte} {bytes : List Byte} :
    decode (code :: bytes) = .error (.noSuchOperation code) ↔ readOperands code.toNat bytes = none := by
  rw [decode]
  split <;> simp [*]

/-- Settles O1, by what `decode` answers on the bytes of a well-formed operation. -/
theorem decodeOfEncode : Obligations.DecodeOfEncode :=
  fun _ _ hwf => decode_eq_ok.2 ⟨hwf, rfl⟩

/-- Settles O2, by the same equivalence in the other direction. -/
theorem encodeOfDecode : Obligations.EncodeOfDecode :=
  fun _ _ _ h => (decode_eq_ok.1 h).imp_right Eq.symm

/-- Settles O3: the map is the definition of the codes, and `decode` refuses a code exactly where it reads no
operands. -/
theorem codesOutsideTheMapAreRefused : Obligations.CodesOutsideTheMapAreRefused :=
  ⟨fun _ _ _ _ _ _ _ _ _ _ => rfl, fun _ _ => decode_eq_noSuchOperation.trans readOperands_eq_none⟩

/-- Settles O4, by evaluating the decoder on each of the words. -/
theorem tableWordsDecode : Obligations.TableWordsDecode :=
  ⟨rfl, rfl, rfl, rfl, rfl, rfl, rfl, rfl, rfl, rfl, rfl⟩

/-- Settles O5, by what `step` does with bytes that decode. -/
theorem stepRunsIssuedOperation : Obligations.StepRunsIssuedOperation :=
  fun _ _ _ h => Machine.step_of_decode h

end Sys2Proof

/-! SUPPORT. Value operands count modulo 256 (30_encoding.md R69), and the snapshots of a list of bits one by one, up to
the frame formula (30_encoding.md R63). -/

namespace Sys2Proof.Machine

/-! Value operands. -/

@[simp] theorem trunc8_mod (v : Nat) : trunc8 (v % 256) = trunc8 v :=
  BitVec.eq_of_toNat_eq (by simp [trunc8])

theorem toNat_trunc8 (v : Nat) : (trunc8 v).toNat = v % 256 := BitVec.toNat_ofNat v 8

theorem getLsbD_trunc8 (v : Nat) {i : Nat} (h : i < 8) : (trunc8 v).getLsbD i = v.testBit i := by
  rw [trunc8, BitVec.getLsbD_ofNat, decide_eq_true h, Bool.true_and]

@[simp] theorem State.encFrame_mod (r g b : Nat) (s : State) :
    s.encFrame (r % 256) (g % 256) (b % 256) = s.encFrame r g b := by
  simp only [State.encFrame_eq, trunc8_mod]

theorem State.sendFrame_mod (r g b : Nat) (s : State) :
    s.sendFrame (r % 256) (g % 256) (b % 256) = s.sendFrame r g b := by
  simp only [State.sendFrame, State.sendFrameSim, State.sendFrameWith, State.encFrame_mod]

/-- `ENCFRAME` where the render agent can move, field by field. -/
theorem exec_encframe_of_ready {s : State} (h : s.Ready) (r g b : Nat) :
    exec (.encframe r g b) s = .next { s with
      frR := trunc8 r, frG := trunc8 g, frB := trunc8 b,
      ls := s.frameLine r g b, out := s.frameBytes r g b, pos := 72 } := by
  rw [exec_encframe, asRender_of_ready h, State.encFrame_eq]
  rfl

/-- Settles O13: every operand reaches the state through `trunc8`. -/
theorem operandsAreMasked : Obligations.OperandsAreMasked := by
  refine fun s v r g b => ⟨?_, ?_, ?_, fun hr => ⟨_, exec_encframe_of_ready hr r g b, ?_⟩⟩
  · rw [exec_encbyte, exec_encbyte, trunc8_mod]
  · rw [exec_encframe, exec_encframe, State.encFrame_mod]
  · rw [exec_sendframe, exec_sendframe, State.sendFrame_mod]
  · exact ⟨toNat_trunc8 r, toNat_trunc8 g, toNat_trunc8 b⟩

/-! The two flags and the reserved bits of line-state bytes put together. -/

@[simp] theorem clockOf_or (p : Pins) (x y : Byte) : clockOf p (x ||| y) = (clockOf p x || clockOf p y) :=
  BitVec.getLsbD_or

@[simp] theorem dataOf_or (p : Pins) (x y : Byte) : dataOf p (x ||| y) = (dataOf p x || dataOf p y) :=
  BitVec.getLsbD_or

@[simp] theorem reservedOf_or (p : Pins) (x y : Byte) : reservedOf p (x ||| y) = reservedOf p x ||| reservedOf p y :=
  BitVec.and_or_distrib_right

@[simp] theorem clockOf_ite (p : Pins) (P : Prop) [Decidable P] (x : Byte) :
    clockOf p (if P then x else 0#8) = (decide P && clockOf p x) := by
  by_cases h : P <;> simp [h, clockOf]

@[simp] theorem dataOf_ite (p : Pins) (P : Prop) [Decidable P] (x : Byte) :
    dataOf p (if P then x else 0#8) = (decide P && dataOf p x) := by
  by_cases h : P <;> simp [h, dataOf]

@[simp] theorem reservedOf_ite (p : Pins) (P : Prop) [Decidable P] (x : Byte) :
    reservedOf p (if P then x else 0#8) = if P then reservedOf p x else 0#8 := by
  by_cases h : P <;> simp [h, reservedOf]

@[simp] theorem clockOf_clockMask (p : Pins) : clockOf p p.clockMask = true := by
  rw [clockOf, Pins.getLsbD_clockMask, decide_eq_true rfl]

@[simp] theorem dataOf_dataMask (p : Pins) : dataOf p p.dataMask = true := by
  rw [dataOf, Pins.getLsbD_dataMask, decide_eq_true rfl]

theorem dataOf_clockMask {p : Pins} (h : p.clock ≠ p.data) : dataOf p p.clockMask = false := by
  rw [dataOf, Pins.getLsbD_clockMask, decide_eq_false (Fin.val_ne_of_ne h.symm)]

theorem clockOf_dataMask {p : Pins} (h : p.clock ≠ p.data) : clockOf p p.dataMask = false := by
  rw [clockOf, Pins.getLsbD_dataMask, decide_eq_false (Fin.val_ne_of_ne h)]

/-- A byte has no reserved bit set when only the two masks' bits are. -/
theorem reservedOf_eq_zero {p : Pins} {x : Byte}
    (h : ∀ i, x.getLsbD i = true → i = p.clock.val ∨ i = p.data.val) : reservedOf p x = 0 := by
  apply BitVec.eq_of_getLsbD_eq
  intro i _
  rw [getLsbD_reservedOf]
  cases hx : x.getLsbD i
  · exact BitVec.getLsbD_zero.symm
  · rcases h i hx with rfl | rfl <;> simp

@[simp] theorem reservedOf_clockMask (p : Pins) : reservedOf p p.clockMask = 0 :=
  reservedOf_eq_zero fun i hi => .inl (by simpa [Pins.getLsbD_clockMask] using hi)

@[simp] theorem reservedOf_dataMask (p : Pins) : reservedOf p p.dataMask = 0 :=
  reservedOf_eq_zero fun i hi => .inr (by simpa [Pins.getLsbD_dataMask] using hi)

@[simp] theorem clockOf_reservedOf (p : Pins) (x : Byte) : clockOf p (reservedOf p x) = false := by
  rw [clockOf, getLsbD_reservedOf]
  simp

@[simp] theorem dataOf_reservedOf (p : Pins) (x : Byte) : dataOf p (reservedOf p x) = false := by
  rw [dataOf, getLsbD_reservedOf]
  simp

@[simp] theorem reservedOf_reservedOf (p : Pins) (x : Byte) : reservedOf p (reservedOf p x) = reservedOf p x := by
  simp [reservedOf, BitVec.and_assoc]

/-! The snapshots of a list of bits. -/

theorem encBitsFun_append (p : Pins) (xs ys : List Bool) (ls : Byte) :
    encBitsFun p (xs ++ ys) ls =
      ((encBitsFun p xs ls).1 ++ (encBitsFun p ys (encBitsFun p xs ls).2).1,
        (encBitsFun p ys (encBitsFun p xs ls).2).2) := by
  induction xs generalizing ls with
  | nil => rfl
  | cons x xs ih => simp only [List.cons_append, encBitsFun, ih, List.append_assoc]

/-- The three snapshots of one bit: DATA is the bit, the middle one has CLOCK high, and the first shows the CLOCK bit
found (40_line_encoder.md R84). -/
theorem encBitFun_snapshot {p : Pins} (h : p.clock ≠ p.data) {b : Bool} {ls x : Byte} {k : Nat}
    (hx : (encBitFun p b ls).1[k]? = some x) :
    dataOf p x = b ∧ clockOf p x = (decide (k = 1) || (decide (k = 0) && clockOf p ls)) ∧
      reservedOf p x = reservedOf p ls := by
  rw [encBitFun_eq] at hx
  rcases k with _ | _ | _ | k <;> cases hx
  all_goals simp [clockOf_setData h, dataOf_clockHigh h, dataOf_clockLow h]

/-- Snapshot `k` of a list of bits: DATA is bit `k / 3`, CLOCK is high in the middle of each triplet, and the first
snapshot shows the CLOCK bit found. -/
theorem encBitsFun_snapshot {p : Pins} (h : p.clock ≠ p.data) {bits : List Bool} {ls x : Byte} {k : Nat}
    (hx : (encBitsFun p bits ls).1[k]? = some x) :
    bits[k / 3]? = some (dataOf p x) ∧
      clockOf p x = (decide (k % 3 = 1) || (decide (k = 0) && clockOf p ls)) ∧
      reservedOf p x = reservedOf p ls := by
  induction bits generalizing ls k with
  | nil => cases hx
  | cons b bs ih =>
    obtain ⟨hclock, _, hreserved⟩ := encBitFun_ends h b ls
    rw [encBitsFun, List.getElem?_append, encBitFun_length] at hx
    split_ifs at hx with hk
    · obtain ⟨hd, hc, hr⟩ := encBitFun_snapshot h hx
      rw [show k / 3 = 0 by omega, show k % 3 = k by omega]
      exact ⟨congrArg some hd.symm, hc, hr⟩
    · obtain ⟨hd, hc, hr⟩ := ih hx
      rw [hclock] at hc
      rw [show k / 3 = (k - 3) / 3 + 1 by omega]
      refine ⟨hd, ?_, hr.trans hreserved⟩
      rw [hc, show (k - 3) % 3 = k % 3 by omega]
      simp [show k ≠ 0 by omega]

/-! The frame formula. -/

/-- The 24 bits of a frame in the order they are sent: red, green, blue, bit 7 first (30_encoding.md R63). -/
def frameBits (c : Rgb) : List Bool := bitsSent c.r ++ bitsSent c.g ++ bitsSent c.b

theorem encFrameFun_eq_encBitsFun (p : Pins) (c : Rgb) (ls : Byte) :
    encFrameFun p c ls = encBitsFun p (frameBits c) ls := by
  simp only [frameBits, encBitsFun_append]
  rfl

/-- Bit `j` of a frame is bit `7 - j % 8` of channel `j / 8`. -/
theorem frameBits_getElem? (c : Rgb) {j : Nat} (h : j < 24) :
    (frameBits c)[j]? =
      some ((if j / 8 = 0 then c.r else if j / 8 = 1 then c.g else c.b).getLsbD (7 - j % 8)) := by
  interval_cases j <;> rfl

/-- One bit put at position `n`. -/
theorem zeroExtend_ofBool_shiftLeft (b : Bool) (n : Nat) :
    BitVec.zeroExtend 8 (BitVec.ofBool b) <<< n = if b then (1#8) <<< n else 0 := by
  cases b
  · exact BitVec.zero_shiftLeft n
  · rfl

/-- The formula of snapshot `k` in the two masks: bit `k / 3` of the frame on DATA, CLOCK high in the middle of each
triplet. -/
theorem snapshotOf_eq (p : Pins) (c : Rgb) {k : Nat} {b : Bool} (hk : k < 72) (hb : (frameBits c)[k / 3]? = some b) :
    snapshotOf p c k = (if b then p.dataMask else 0) ||| (if k % 3 = 1 then p.clockMask else 0) := by
  rw [frameBits_getElem? c (by omega), show k / 3 / 8 = k / 24 by omega, show k / 3 % 8 = k % 24 / 3 by omega] at hb
  cases hb
  simp only [snapshotOf, zeroExtend_ofBool_shiftLeft, beq_iff_eq]
  rfl

/-- Snapshot `k` of a frame from any line state: the formula, with the reserved bits found at entry in all of them and a
CLOCK bit found high in the first (70_reset_and_hazards.md R221). -/
theorem encFrameFun_snapshot {p : Pins} (h : p.clock ≠ p.data) (c : Rgb) (ls : Byte) {k : Nat} (hk : k < 72) :
    (encFrameFun p c ls).1[k]? = some
      ((snapshotOf p c k ||| (if k = 0 ∧ clockOf p ls = true then p.clockMask else 0)) ||| reservedOf p ls) := by
  obtain ⟨x, hx⟩ : ∃ x, (encFrameFun p c ls).1[k]? = some x :=
    ⟨_, List.getElem?_eq_getElem (by rw [encFrameFun_length]; exact hk)⟩
  rw [hx]
  rw [encFrameFun_eq_encBitsFun] at hx
  obtain ⟨hdata, hclock, hreserved⟩ := encBitsFun_snapshot h hx
  rw [snapshotOf_eq p c hk hdata]
  refine congrArg some (line_ext (p := p) ?_ ?_ ?_)
  · rw [hclock]
    simp [clockOf_dataMask h]
  · simp [dataOf_clockMask h]
  · rw [hreserved]
    simp

/-- Settles O14: every snapshot of `EncFrame` is the formula's with the entry's bits, and the frame ends at rest. -/
theorem encframeFollowsTheFrameFormula : Obligations.EncframeFollowsTheFrameFormula := by
  intro s r g b hr
  obtain ⟨hclock, hdata, hreserved⟩ := s.frameLine_ends r g b
  refine ⟨_, exec_encframe_of_ready hr r g b, encFrameFun_length _ _ _,
    fun k hk => encFrameFun_snapshot linePins_distinct _ _ hk, hclock, ?_, hreserved, rfl⟩
  exact hdata.trans (getLsbD_trunc8 b (by omega))

end Sys2Proof.Machine

/-! SUPPORT. The LineEncoder (40_line_encoder.md): the flags and the rest of the machine under each operation, a triplet
from the resting state (R84), and the order in which the wires change (R87). -/

namespace Sys2Proof.Machine

/-! The three flag operations and `EMIT`. -/

/-- Settles O7, by the bit laws of `setData`; the state update names no field but the line state. -/
theorem setdWritesDataOnly : Obligations.SetdWritesDataOnly := by
  intro s b hr
  exact ⟨_, (exec_setd b s).trans (asRender_of_ready hr _), rfl, dataOf_setData linePins b s.ls,
    clockOf_setData linePins_distinct b s.ls, reservedOf_setData linePins b s.ls, rfl⟩

/-- Settles O8, by the bit laws of `clockHigh` and `clockLow`. -/
theorem clockOperationsWriteClockOnly : Obligations.ClockOperationsWriteClockOnly := by
  intro s hr
  constructor
  · exact ⟨_, (exec_clkh s).trans (asRender_of_ready hr _), rfl, clockOf_clockHigh linePins s.ls,
      dataOf_clockHigh linePins_distinct s.ls, reservedOf_clockHigh linePins s.ls, rfl⟩
  · exact ⟨_, (exec_clkl s).trans (asRender_of_ready hr _), rfl, clockOf_clockLow linePins s.ls,
      dataOf_clockLow linePins_distinct s.ls, reservedOf_clockLow linePins s.ls, rfl⟩

/-- Settles O9: where the render agent can move, `EMIT` is its state update. -/
theorem emitAppendsLineState : Obligations.EmitAppendsLineState :=
  fun s hr => (exec_emit s).trans (asRender_of_ready hr _)

/-! The resting state, and a triplet from it. -/

theorem resting_iff {p : Pins} {ls : Byte} : resting p ls = true ↔ clockOf p ls = false ∧ reservedOf p ls = 0 := by
  simp [resting]

/-- `SETD` from the resting state leaves no bit but DATA. -/
theorem setData_of_resting {p : Pins} (h : p.clock ≠ p.data) {ls : Byte} (hrest : resting p ls = true) (b : Bool) :
    setData p b ls = if b then p.dataMask else 0 := by
  obtain ⟨hclock, hreserved⟩ := resting_iff.1 hrest
  apply line_ext (p := p)
  · simp [clockOf_setData h, hclock, clockOf_dataMask h]
  · simp
  · simp [hreserved]

/-- `CLKL` changes nothing where CLOCK is low, also after a `CLKH` in between. -/
theorem clockLow_clockHigh_of_low {p : Pins} (h : p.clock ≠ p.data) {ls : Byte} (hclock : clockOf p ls = false) :
    clockLow p (clockHigh p ls) = ls := by
  apply line_ext (p := p)
  · rw [clockOf_clockLow, hclock]
  · rw [dataOf_clockLow h, dataOf_clockHigh h]
  · rw [reservedOf_clockLow, reservedOf_clockHigh]

/-- A triplet from the resting state is `0 C 0` or `D B D`, whatever DATA was (40_line_encoder.md R84). -/
theorem encBitFun_of_resting {p : Pins} (h : p.clock ≠ p.data) {ls : Byte} (hrest : resting p ls = true) (b : Bool) :
    (encBitFun p b ls).1 =
      if b then [p.dataMask, p.dataMask ||| p.clockMask, p.dataMask] else [0, p.clockMask, 0] := by
  have hclock : clockOf p (setData p b ls) = false :=
    (clockOf_setData h b ls).trans (resting_iff.1 hrest).1
  rw [encBitFun_eq, clockLow_clockHigh_of_low h hclock, setData_of_resting h hrest]
  cases b <;> simp [clockHigh]

/-- Settles O10: the formula of `EncBit` with its shifted bit written as a mask, how it ends, and its triplet from
rest. -/
theorem encbitAppendsTriplet : Obligations.EncbitAppendsTriplet := by
  intro s b hr C D d
  have hfun : encBitFun linePins b s.ls = ([d, d ||| C, d &&& ~~~C], d &&& ~~~C) := by
    simp only [encBitFun, zeroExtend_ofBool_shiftLeft]
    rfl
  obtain ⟨hclock, hdata, _⟩ := encBitFun_ends linePins_distinct b s.ls
  rw [hfun] at hclock hdata
  refine ⟨?_, hclock, hdata, fun hrest => ?_⟩
  · rw [exec_encbit, asRender_of_ready hr, State.encBit_eq, hfun]
  · rw [← encBitFun_of_resting linePins_distinct hrest b, hfun]

/-! The snapshots of a byte. -/

/-- Bit `j` in the order of sending is bit `7 - j` of the value. -/
theorem bitsSent_getElem? (v : Byte) {j : Nat} (h : j < 8) : (bitsSent v)[j]? = some (v.getLsbD (7 - j)) := by
  interval_cases j <;> rfl

/-- `ENCBYTE` where the render agent can move, field by field. -/
theorem exec_encbyte_of_ready {s : State} (h : s.Ready) (v : Nat) :
    exec (.encbyte v) s = .next { s with
      ls := (encByteFun linePins (trunc8 v) s.ls).2
      out := s.out ++ (encByteFun linePins (trunc8 v) s.ls).1
      pos := s.pos + 24 } := by
  rw [exec_encbyte, asRender_of_ready h, State.encByte_eq]

/-- Settles O11: snapshot `j` of the eight bits of the operand, and how `EncByte` ends. -/
theorem encbyteSendsEachBit : Obligations.EncbyteSendsEachBit := by
  intro s v hr
  have hlength := encByteFun_length linePins (trunc8 v) s.ls
  obtain ⟨hclock, hdata, hreserved⟩ := encByteFun_ends linePins_distinct (trunc8 v) s.ls
  refine ⟨_, _, exec_encbyte_of_ready hr v, rfl, hlength, fun j x hx => ?_, hclock,
    hdata.trans (getLsbD_trunc8 v (by omega)), hreserved⟩
  have hj : j < 24 := hlength ▸ (List.getElem?_eq_some_iff.1 hx).1
  obtain ⟨hbit, hxclock, hxreserved⟩ := encBitsFun_snapshot linePins_distinct hx
  rw [bitsSent_getElem? _ (by omega), getLsbD_trunc8 v (by omega)] at hbit
  exact ⟨(Option.some.inj hbit).symm, hxclock, hxreserved⟩

/-! The order of the wires. -/

/-- Entered with CLOCK low, the encoder changes one wire at a time: CLOCK rises and falls inside a triplet, and DATA
changes only between two triplets, where CLOCK is low on both sides (40_line_encoder.md R87). -/
theorem encBitsFun_one_wire {p : Pins} (h : p.clock ≠ p.data) {bits : List Bool} {ls x y : Byte} {k : Nat}
    (hlow : clockOf p ls = false) (hx : (encBitsFun p bits ls).1[k]? = some x)
    (hy : (encBitsFun p bits ls).1[k + 1]? = some y) :
    (clockOf p x = clockOf p y ∨ dataOf p x = dataOf p y) ∧
      (dataOf p x ≠ dataOf p y → k % 3 = 2) ∧
      (k % 3 = 2 → clockOf p x = false ∧ clockOf p y = false) ∧
      (k % 3 = 0 → clockOf p x = false ∧ clockOf p y = true) ∧
      (k % 3 = 1 → clockOf p x = true ∧ clockOf p y = false) := by
  obtain ⟨hxbit, hxclock, -⟩ := encBitsFun_snapshot h hx
  obtain ⟨hybit, hyclock, -⟩ := encBitsFun_snapshot h hy
  rw [hlow, Bool.and_false, Bool.or_false] at hxclock hyclock
  have hsame : k % 3 ≠ 2 → dataOf p x = dataOf p y := by
    intro hk
    rw [show (k + 1) / 3 = k / 3 by omega, hxbit] at hybit
    exact Option.some.inj hybit
  have hcases : k % 3 = 0 ∨ k % 3 = 1 ∨ k % 3 = 2 := by omega
  rw [hxclock, hyclock, Nat.add_mod]
  rcases hcases with hk | hk | hk
  · simp [hk, hsame]
  · simp [hk, hsame]
  · simp [hk]

/-- Settles O12: both operations put out the snapshots of a list of bits, from CLOCK low. -/
theorem oneWireChangesAtATime : Obligations.OneWireChangesAtATime := by
  intro s v r g b hr hrest hempty i hi
  have hlow := (resting_iff.1 hrest).1
  rcases List.mem_pair.1 hi with rfl | rfl
  · refine ⟨_, exec_encbyte_of_ready hr v, fun k x y hx hy => ?_⟩
    simp only [hempty, List.nil_append] at hx hy
    exact encBitsFun_one_wire linePins_distinct hlow hx hy
  · refine ⟨_, exec_encframe_of_ready hr r g b, fun k x y hx hy => ?_⟩
    simp only [State.frameBytes, encFrameFun_eq_encBitsFun] at hx hy
    exact encBitsFun_one_wire linePins_distinct hlow hx hy

end Sys2Proof.Machine

/-! SUPPORT. The FrameEncoder (41_frame_encoder.md): `DECFRAME` as the sum over the rising edges of CLOCK (R104), the
round trip of a frame (R101), what a frame depends on (R106), and `SENDFRAME` on both sinks (R102). -/

namespace Sys2Proof.Machine

/-! Bits collected into a number. -/

theorem bitsToNat_cons (b : Bool) (bs : List Bool) :
    bitsToNat (b :: bs) = b.toNat * 2 ^ bs.length + bitsToNat bs := by
  have hacc : ∀ (bits : List Bool) (n : Nat),
      bits.foldl (fun n b => 2 * n + b.toNat) n = n * 2 ^ bits.length + bitsToNat bits := by
    intro bits
    induction bits with
    | nil => simp [bitsToNat]
    | cons c cs ih =>
      intro n
      rw [bitsToNat, List.foldl_cons, List.foldl_cons, ih, ih (2 * 0 + c.toNat), List.length_cons]
      ring
  rw [bitsToNat, List.foldl_cons, hacc, Nat.mul_zero, Nat.zero_add]

/-- The number that bits stand for, most significant first, as the sum of their places. -/
theorem bitsToNat_eq_sum (bits : List Bool) :
    bitsToNat bits =
      ((List.range bits.length).map fun j => (bits.getD j false).toNat * 2 ^ (bits.length - 1 - j)).sum := by
  induction bits with
  | nil => rfl
  | cons b bs ih =>
    rw [bitsToNat_cons, ih, List.length_cons, List.range_succ_eq_map, List.map_cons, List.sum_cons, List.map_map]
    simp [Function.comp_def, Nat.sub_add_eq, Nat.sub_right_comm]

theorem bitsToNat_drop_take {bits : List Bool} {n : Nat} (h : n + 8 ≤ bits.length) :
    bitsToNat ((bits.drop n).take 8) =
      ((List.range 8).map fun j => (bits.getD (n + j) false).toNat * 2 ^ (7 - j)).sum := by
  have hlength : ((bits.drop n).take 8).length = 8 := by
    rw [List.length_take, List.length_drop]
    omega
  rw [bitsToNat_eq_sum, hlength]
  refine congrArg List.sum (List.map_congr_left fun j hj => ?_)
  simp [List.getD_eq_getElem?_getD, List.mem_range.1 hj]

/-- The low `n` bits of a number, most significant first, stand for its residue. -/
theorem bitsToNat_testBit (x n : Nat) : bitsToNat ((List.range n).reverse.map x.testBit) = x % 2 ^ n := by
  induction n with
  | zero => rw [Nat.pow_zero, Nat.mod_one]; rfl
  | succ n ih =>
    rw [List.range_succ, List.reverse_append, List.reverse_singleton, List.singleton_append, List.map_cons,
      bitsToNat_cons, ih, Nat.mod_pow_succ, Nat.toNat_testBit, List.length_map, List.length_reverse, List.length_range,
      Nat.mul_comm, Nat.add_comm]

/-- A byte's bits in the order they are sent stand for its value. -/
theorem bitsToNat_bitsSent (v : Byte) : bitsToNat (bitsSent v) = v.toNat := by
  have hbits : bitsSent v = (List.range 8).reverse.map v.toNat.testBit := rfl
  rw [hbits, bitsToNat_testBit, Nat.mod_eq_of_lt v.isLt]

/-! The rising edges of CLOCK. -/

/-- Is there a rising edge of CLOCK at snapshot `k` (41_frame_encoder.md R104), `prev` the CLOCK bit before the first
snapshot. -/
def isRisingEdge (p : Pins) (prev : Bool) (snapshots : List Byte) (k : Nat) : Bool :=
  clockOf p (snapshots.getD k 0) && !(prev :: snapshots.map (clockOf p)).getD k false

/-- The bits that `DECFRAME` collects are DATA at the rising edges, in order. -/
theorem risingData_eq (p : Pins) (prev : Bool) (snapshots : List Byte) :
    risingData p prev snapshots =
      ((List.range snapshots.length).filter (isRisingEdge p prev snapshots)).map
        fun k => dataOf p (snapshots.getD k 0) := by
  induction snapshots generalizing prev with
  | nil => rfl
  | cons x xs ih =>
    have hfirst : isRisingEdge p prev (x :: xs) 0 = (clockOf p x && !prev) := rfl
    have hlater : isRisingEdge p prev (x :: xs) ∘ Nat.succ = isRisingEdge p (clockOf p x) xs := rfl
    rw [risingData, ih, List.length_cons, List.range_succ_eq_map, List.filter_cons, hfirst, List.filter_map, hlater]
    split <;> simp

/-- With nothing before the first snapshot, an edge is a snapshot with CLOCK 1 that is the first or follows one with
CLOCK 0. -/
theorem isRisingEdge_false (p : Pins) (snapshots : List Byte) (k : Nat) :
    isRisingEdge p false snapshots k =
      (clockOf p (snapshots.getD k 0) && (k == 0 || !clockOf p (snapshots.getD (k - 1) 0))) := by
  cases k with
  | zero => rfl
  | succ j =>
    rw [isRisingEdge, List.getD_cons_succ, ← clockOf_zero p, List.getD_map]
    rfl

/-- Settles O20: the collected bits are DATA at the rising edges, and each channel is the sum of its eight bits'
places. -/
theorem decframeSumsRisingEdges : Obligations.DecframeSumsRisingEdges := by
  intro s snapshots edge bits byte
  have hbits : risingData linePins false snapshots = bits := by
    rw [risingData_eq, funext (isRisingEdge_false linePins snapshots)]
  have hbyte : ∀ n, n + 8 ≤ bits.length → bitsToNat ((bits.drop n).take 8) = byte n :=
    fun n hn => bitsToNat_drop_take hn
  rw [exec_decframe, decframeResult, decFrameFun, hbits]
  by_cases hlength : bits.length = 24
  · rw [if_pos hlength, if_pos hlength, ← hbyte 0 (by omega), ← hbyte 8 (by omega), ← hbyte 16 (by omega)]
    rfl
  · rw [if_neg hlength, if_neg hlength]
    rfl

/-! The round trip of a frame. -/

/-- Decoding gives back the bits that were encoded, from any line state: a CLOCK bit found high makes the first snapshot
an edge in place of the second, with the same DATA. -/
theorem risingData_encBitsFun {p : Pins} (h : p.clock ≠ p.data) (bits : List Bool) (ls : Byte) :
    risingData p false (encBitsFun p bits ls).1 = bits := by
  induction bits generalizing ls with
  | nil => rfl
  | cons b bs ih =>
    rw [encBitsFun, encBitFun_eq]
    cases hclock : clockOf p ls
    all_goals simp [risingData, clockOf_setData h, hclock, dataOf_clockHigh h, ih]

/-- Decoding a frame's snapshots gives the frame, from any line state (41_frame_encoder.md R101). -/
theorem decFrameFun_encFrameFun {p : Pins} (h : p.clock ≠ p.data) (c : Rgb) (ls : Byte) :
    decFrameFun p (encFrameFun p c ls).1 = some c.toFrame := by
  have hframe : decFrameFun p (encFrameFun p c ls).1 =
      some ⟨bitsToNat (bitsSent c.r), bitsToNat (bitsSent c.g), bitsToNat (bitsSent c.b)⟩ := by
    rw [decFrameFun, encFrameFun_eq_encBitsFun, risingData_encBitsFun h]
    rfl
  rw [hframe, bitsToNat_bitsSent, bitsToNat_bitsSent, bitsToNat_bitsSent, Rgb.toFrame]

/-- Decoding the snapshots of `ENCFRAME r, g, b` gives the three masked operands. -/
theorem State.decFrameFun_frameBytes (r g b : Nat) (s : State) :
    decFrameFun linePins (s.frameBytes r g b) = some ⟨r % 256, g % 256, b % 256⟩ := by
  simp only [State.frameBytes, decFrameFun_encFrameFun linePins_distinct, Rgb.toFrame, toNat_trunc8]

theorem State.Ready.encByte {s : State} (h : s.Ready) (v : Byte) : (s.encByte v).Ready := by
  rw [State.encByte_eq]
  exact h

/-- `ENCBYTE` of three channels one after the other, where the render agent can move. -/
theorem execMany_encbytes {s : State} (h : s.Ready) (r g b : Nat) :
    execMany [.encbyte r, .encbyte g, .encbyte b] s =
      .next (((s.encByte (trunc8 r)).encByte (trunc8 g)).encByte (trunc8 b)) := by
  simp only [execMany, exec_encbyte, asRender_of_ready h, asRender_of_ready (h.encByte _),
    asRender_of_ready ((h.encByte _).encByte _)]

/-- Three channels one after the other append the snapshots of their frame. -/
theorem State.encBytes_out (r g b : Nat) (s : State) :
    (((s.encByte (trunc8 r)).encByte (trunc8 g)).encByte (trunc8 b)).out = s.out ++ s.frameBytes r g b := by
  simp [State.encByte_eq, State.frameBytes, encFrameFun]

/-- Settles O15: both ways encode the same three channels, decoding the snapshots gives the masked operands, and so
snapshots that agree come from operands that do. -/
theorem frameRoundTrip : Obligations.FrameRoundTrip := by
  constructor
  · intro s r g b hr
    have hstart : ({ s with out := [], pos := 0 } : State).Ready := hr
    refine ⟨_, _, exec_encframe_of_ready hr r g b, execMany_encbytes hstart r g b,
      (State.encBytes_out r g b _).trans (List.nil_append _),
      s.frameBytes_length r g b, fun _ => ?_⟩
    rw [exec_decframe, decframeResult, s.decFrameFun_frameBytes]
    rfl
  · intro s r g b r' g' b' t t' hr _ ht ht' hout
    obtain ⟨⟩ := (exec_encframe_of_ready hr r g b).symm.trans ht
    obtain ⟨⟩ := (exec_encframe_of_ready hr r' g' b').symm.trans ht'
    have hframe := congrArg (decFrameFun linePins) hout
    simpa [State.decFrameFun_frameBytes] using hframe

/-! What a frame depends on. -/

/-- `SETD` forgets the DATA bit it finds. -/
theorem setData_congr {p : Pins} (h : p.clock ≠ p.data) {ls ls' : Byte} (hclock : clockOf p ls = clockOf p ls')
    (hreserved : reservedOf p ls = reservedOf p ls') (b : Bool) : setData p b ls = setData p b ls' := by
  apply line_ext (p := p)
  · rw [clockOf_setData h, clockOf_setData h, hclock]
  · rw [dataOf_setData, dataOf_setData]
  · rw [reservedOf_setData, reservedOf_setData, hreserved]

/-- A frame, its snapshots and the line state it leaves, is the same from line states that differ in DATA only: its
first bit is put on DATA before anything is emitted (41_frame_encoder.md R106). -/
theorem encFrameFun_congr {p : Pins} (h : p.clock ≠ p.data) {ls ls' : Byte} (hclock : clockOf p ls = clockOf p ls')
    (hreserved : reservedOf p ls = reservedOf p ls') (c : Rgb) : encFrameFun p c ls = encFrameFun p c ls' := by
  obtain ⟨first, rest, hbits⟩ : ∃ first rest, frameBits c = first :: rest := ⟨_, _, rfl⟩
  have hfirst : encBitFun p first ls = encBitFun p first ls' := by
    rw [encBitFun_eq, encBitFun_eq, setData_congr h hclock hreserved]
  rw [encFrameFun_eq_encBitsFun, encFrameFun_eq_encBitsFun, hbits, encBitsFun, encBitsFun, hfirst]

/-- Settles O16: `ENCFRAME` reads no register but the line state, and of that not DATA. -/
theorem encframeDependsOnClockAndReservedOnly : Obligations.EncframeDependsOnClockAndReservedOnly := by
  intro s s' r g b hr hr' hclock hreserved
  have hframe := encFrameFun_congr linePins_distinct hclock hreserved ⟨trunc8 r, trunc8 g, trunc8 b⟩
  exact ⟨_, _, exec_encframe_of_ready hr r g b, exec_encframe_of_ready hr' r g b,
    congrArg Prod.fst hframe, congrArg Prod.snd hframe⟩

/-! `SENDFRAME`. -/

/-- `SENDFRAME` where the render agent can move and the sink may be written to. -/
theorem exec_sendframe_of_ready {s : State} (hr : s.Ready) (hsink : s.sinkReady = true) (r g b : Nat) :
    exec (.sendframe r g b) s = .next (s.sendFrame r g b) := by
  rw [exec_sendframe, asRender_of_ready hr, guardSend_of_ready fun _ => hsink]

/-- Settles O17: under `SIMULATE` the sink is ready and `SENDFRAME` is its simulation form. -/
theorem sendframeUnderSimulate : Obligations.SendframeUnderSimulate := by
  intro s r g b hr hsim
  refine ⟨s.frameBytes_length r g b, ?_⟩
  rw [exec_sendframe_of_ready hr (s.sinkReady_iff.2 (.inl hsim)), State.sendFrame, if_pos hsim, State.sendFrameSim_eq]

/-- The last snapshot of a list of bits is the line state it leaves. -/
theorem encBitsFun_getLast? (p : Pins) (bits : List Bool) (b : Bool) (ls : Byte) :
    (encBitsFun p (bits ++ [b]) ls).1.getLast? = some (encBitsFun p (bits ++ [b]) ls).2 := by
  rw [encBitsFun_append]
  simp [encBitsFun, encBitFun]

/-- The last snapshot of a frame is the line state it leaves. -/
theorem State.frameBytes_getLast? (r g b : Nat) (s : State) :
    (s.frameBytes r g b).getLast? = some (s.frameLine r g b) := by
  obtain ⟨bits, last, hbits⟩ : ∃ bits last, frameBits ⟨trunc8 r, trunc8 g, trunc8 b⟩ = bits ++ [last] :=
    ⟨_, _, (List.dropLast_append_getLast (by simp [frameBits, bitsSent])).symm⟩
  rw [State.frameBytes, State.frameLine, encFrameFun_eq_encBitsFun, hbits, encBitsFun_getLast?]

/-- Settles O18: with the sink's answer a success, the write is of the whole frame, and the wires are those of the line
state that the frame leaves. -/
theorem sendframeTakenByTheDevice : Obligations.SendframeTakenByTheDevice := by
  intro s r g b hr hsim hinit hanswer
  have hsend : s.sendFrame r g b = s.afterSinkAnswer.sendFrameWith r g b .ok := by
    rw [State.sendFrame, hsim, hanswer]
    rfl
  obtain ⟨hclock, hdata, -⟩ := s.frameLine_ends r g b
  have hwires : wiresOf linePins (s.frameLine r g b) = ⟨false, b.testBit 0⟩ :=
    congrArg₂ Wires.mk hclock (hdata.trans (getLsbD_trunc8 b (by omega)))
  refine ⟨s.frameBytes_length r g b, _, exec_sendframe_of_ready hr (s.sinkReady_iff.2 (.inr hinit)) r g b, ?_⟩
  rw [hsend, State.sendFrameWith_ok]
  have hlast := s.afterSinkAnswer.frameBytes_getLast? r g b
  refine ⟨rfl, rfl, ?_, rfl⟩
  simp only [hlast, Option.map_some, Option.getD_some]
  exact hwires

end Sys2Proof.Machine

/-! SUPPORT. The AnimationEngine (42_animation_engine.md): the frame each tick operation returns and its range, and
several ticks in a row. -/

namespace Sys2Proof.Machine

/-! The colour word. -/

/-- The three bytes of a colour word, red the most significant. -/
theorem unpackColor_eq (c : BitVec 24) :
    unpackColor c = ⟨c.toNat / 65536, c.toNat / 256 % 256, c.toNat % 256⟩ := by
  have hc : c.toNat < 2 ^ 24 := c.isLt
  simp only [unpackColor, BitVec.extractLsb'_toNat, Nat.shiftRight_eq_div_pow, Nat.reducePow, Nat.div_one,
    Frame.mk.injEq, and_true]
  omega

/-- The three channels of a frame are at most 255 (42_animation_engine.md R127). -/
def FitsByte (f : Frame) : Prop := f.r ≤ 255 ∧ f.g ≤ 255 ∧ f.b ≤ 255

theorem unpackColor_fits (c : BitVec 24) : FitsByte (unpackColor c) :=
  ⟨Nat.le_of_lt_succ (BitVec.isLt _), Nat.le_of_lt_succ (BitVec.isLt _), Nat.le_of_lt_succ (BitVec.isLt _)⟩

/-- Settles O21, by the bytes of a colour word; the operation writes no register. -/
theorem unpackSplitsTheColor : Obligations.UnpackSplitsTheColor := by
  intro s c hr
  rw [exec_unpack, asRender_of_ready hr, unpackColor_eq]
  rfl

/-! CpuLoad. -/

theorem blueOf_eq (x : Rat) : blueOf x = trunc (8 * (x + 1)) := by norm_num [blueOf, beatAmp]

theorem levelOf_eq (x : Rat) : levelOf x = 191 + trunc (32 * (x + 1)) := by
  norm_num [levelOf, throbBase, throbAmp]

/-- Settles O22: the tick is the update of the three registers, with the wobble and the throb in numbers. -/
theorem tickCpuloadResult : Obligations.TickCpuloadResult := by
  intro s hr
  rw [exec_tickCpuload, asRender_of_ready hr, State.cpuFrame, State.cpuBlue, State.cpuLevel, blueOf_eq, levelOf_eq]
  rfl

/-- The blue wobble at the values of the sine (42_animation_engine.md R120). -/
theorem blueOf_le {x : Rat} (hx : -1 ≤ x ∧ x ≤ 1) : blueOf x ≤ 16 := by
  rw [blueOf_eq]
  exact (trunc_range (a := 0) (by push_cast; linarith) (by push_cast; linarith)).2

/-- The throb level at the values of the sine (42_animation_engine.md R120). -/
theorem levelOf_range {x : Rat} (hx : -1 ≤ x ∧ x ≤ 1) : 191 ≤ levelOf x ∧ levelOf x ≤ 255 := by
  have h : trunc (32 * (x + 1)) ≤ 64 := (trunc_range (a := 0) (by push_cast; linarith) (by push_cast; linarith)).2
  rw [levelOf_eq]
  omega

theorem State.cpuBlue_le (s : State) : s.cpuBlue ≤ 16 := by
  unfold State.cpuBlue
  split
  · exact blueOf_le (sine_range _ _)
  · exact Nat.zero_le _

theorem State.cpuLevel_range (l : Nat) (s : State) : 191 ≤ s.cpuLevel l ∧ s.cpuLevel l ≤ 255 := by
  unfold State.cpuLevel
  split
  · exact levelOf_range (sine_range _ _)
  · decide

theorem tRate_eq (l : Nat) : tRate l = max 5 ((100 - l) / 5) := rfl

/-- Settles O24: `t_rate` by arithmetic, level and blue by the range of the sine. -/
theorem cpuloadRanges : Obligations.CpuloadRanges := by
  simp only [Obligations.CpuloadRanges, tRate_eq]
  refine ⟨⟨rfl, fun l _ => by omega, rfl, fun l _ => by omega, fun l => by omega⟩,
    fun s l => ⟨s.cpuLevel_range l, fun h => ?_, s.cpuBlue_le⟩⟩
  rw [State.cpuLevel, h]
  rfl

theorem blueOf_zero : blueOf 0 = 8 := by
  rw [blueOf_eq]
  exact_mod_cast trunc_natCast 8

theorem levelOf_zero : levelOf 0 = 223 := by
  have h : trunc (32 * (0 + 1)) = 32 := by exact_mod_cast trunc_natCast 32
  rw [levelOf_eq, h]

/-- R and G together lose at most 1 of the level in the two truncations (42_animation_engine.md R118 (f)). -/
theorem gradient_sum (level blue : Nat) {rl : Nat} (h : rl ≤ 100) :
    (gradient level rl blue).r + (gradient level rl blue).g ≤ level ∧
      level ≤ (gradient level rl blue).r + (gradient level rl blue).g + 1 := by
  have hsum : level * rl + level * (100 - rl) = level * 100 := by rw [← Nat.mul_add, Nat.add_sub_cancel' h]
  simp only [gradient, loadMax]
  omega

/-- Settles O25: the sine is 0 at counter 0, and the two parts of the gradient are parts of the level. -/
theorem cpuloadCornerCases : Obligations.CpuloadCornerCases := by
  constructor
  · intro s l hbeat hthrob
    constructor
    · intro h
      rw [State.cpuBlue, if_pos h, hbeat, sine_zero, blueOf_zero]
    · intro h
      rw [State.cpuLevel, if_pos h, hthrob, sine_zero, levelOf_zero]
  · intro level rl blue h
    have hsum := gradient_sum level blue h
    refine ⟨?_, ?_, ?_, ?_, hsum⟩
    all_goals simp [gradient, loadMax]

/-! One operation several times. -/

/-- An operation that is the update `f` wherever the render agent can move, and lets it move on, is `n` times in a row
that update iterated. -/
theorem execMany_replicate {i : Instr} {f : State → State} (hexec : ∀ s : State, s.Ready → exec i s = .next (f s))
    (hready : ∀ s : State, s.Ready → (f s).Ready) (n : Nat) {s : State} (h : s.Ready) :
    execMany (List.replicate n i) s = .next (f^[n] s) := by
  induction n generalizing s with
  | zero => rfl
  | succ n ih =>
    rw [List.replicate_succ, execMany, hexec s h]
    exact ih (hready s h)

/-! CpuLoad, several ticks. -/

/-- The state after `TICK.CPULOAD` with the frame returned. -/
def State.cpuStep (s : State) : State := s.cpuTick.returning (.frame s.cpuFrame)

theorem exec_tickCpuload_of_ready {s : State} (h : s.Ready) : exec .tickCpuload s = .next s.cpuStep := by
  rw [exec_tickCpuload, asRender_of_ready h]
  rfl

theorem State.Ready.cpuStep {s : State} (h : s.Ready) : s.cpuStep.Ready := h

/-- `rendered` moved `n` times by 1 toward `smoothed`, where it stays. -/
def approach (rendered smoothed n : Nat) : Nat :=
  if rendered ≤ smoothed then min (rendered + n) smoothed else max (rendered - n) smoothed

theorem approach_zero (rendered smoothed : Nat) : approach rendered smoothed 0 = rendered := by
  unfold approach
  split <;> omega

theorem follow_approach (rendered smoothed n : Nat) :
    follow (approach rendered smoothed n) smoothed = approach rendered smoothed (n + 1) := by
  unfold follow approach
  split_ifs <;> omega

/-- The move toward the load read is by at most 1 (42_animation_engine.md R119). -/
theorem follow_near (rendered smoothed : Nat) :
    follow rendered smoothed ≤ rendered + 1 ∧ rendered ≤ follow rendered smoothed + 1 := by
  unfold follow
  split_ifs <;> omega

theorem State.cpuStep_iterate (n : Nat) (s : State) :
    (State.cpuStep^[n] s).smoothedLoad = s.smoothedLoad ∧ (State.cpuStep^[n] s).beat = s.beat ∧
      (State.cpuStep^[n] s).renderedLoad = approach s.renderedLoad s.smoothedLoad n := by
  induction n with
  | zero => exact ⟨rfl, rfl, (approach_zero _ _).symm⟩
  | succ n ih =>
    obtain ⟨hload, hbeat, hrendered⟩ := ih
    rw [Function.iterate_succ_apply']
    refine ⟨hload, hbeat, ?_⟩
    rw [← follow_approach, ← hrendered, ← hload]
    rfl

/-- Settles O23: `n` ticks approach the value in the load cell, and the tick after them is one more. -/
theorem cpuloadConverges : Obligations.CpuloadConverges := by
  intro s n hr
  obtain ⟨hload, hbeat, hrendered⟩ := State.cpuStep_iterate n s
  have ht : (State.cpuStep^[n] s).Ready := Function.Iterate.rec State.Ready hr (fun _ h => h.cpuStep) n
  refine ⟨_, execMany_replicate (fun _ h => exec_tickCpuload_of_ready h) (fun _ h => h.cpuStep) n hr, hload, hrendered,
    _, _, exec_tickCpuload_of_ready ht, rfl, fun hoff => ?_, follow_near _ _⟩
  exact if_neg (by simp [hbeat, hoff])

/-! ColorCycle. -/

/-- The scale `10 / 10` changes nothing. -/
theorem mixChannel_eq (c1 c2 : Byte) (step : Nat) :
    mixChannel c1 c2 step = (c1.toNat * (128 - step) + c2.toNat * step) / 128 :=
  Nat.mul_div_cancel _ (by decide)

/-- A mixture of two bytes is a byte (42_animation_engine.md R127). -/
theorem mixChannel_le (c1 c2 : Byte) {step : Nat} (h : step ≤ 128) : mixChannel c1 c2 step ≤ 255 := by
  rw [mixChannel_eq]
  apply Nat.div_le_of_le_mul
  calc c1.toNat * (128 - step) + c2.toNat * step
      ≤ 255 * (128 - step) + 255 * step :=
        Nat.add_le_add (Nat.mul_le_mul_right _ (Nat.le_of_lt_succ c1.isLt))
          (Nat.mul_le_mul_right _ (Nat.le_of_lt_succ c2.isLt))
    _ = 128 * 255 := by omega

/-- Settles O27: the update of the two registers, and the mixture without its scale. -/
theorem tickCycleResult : Obligations.TickCycleResult := by
  intro s hr
  rw [exec_tickCycle, asRender_of_ready hr, State.cycleFrame, mixColor, mixChannel_eq, mixChannel_eq, mixChannel_eq]
  rfl

/-- Settles O28: at step 0 and between equal entries the sum is 128 times the entry; at step 127 the first entry is
one of 128 parts, and so counts for less than 2. -/
theorem cycleMeetsThePaletteEntries : Obligations.CycleMeetsThePaletteEntries := by
  intro c1 c2
  have h1 := c1.isLt
  have h2 := c2.isLt
  simp only [mixChannel_eq]
  refine ⟨by omega, by omega, fun step hstep => ?_⟩
  rw [← Nat.mul_add, Nat.sub_add_cancel hstep, Nat.mul_div_cancel _ (by decide)]

/-! ColorCycle, several ticks: the index and the step are one position on a circle of 768. -/

/-- The state after `TICK.CYCLE` with the frame returned. -/
def State.cycleStep (s : State) : State := s.cycleTick.returning (.frame s.cycleFrame)

theorem exec_tickCycle_of_ready {s : State} (h : s.Ready) : exec .tickCycle s = .next s.cycleStep := by
  rw [exec_tickCycle, asRender_of_ready h]
  rfl

theorem execMany_tickCycle {s : State} (h : s.Ready) (n : Nat) :
    execMany (List.replicate n .tickCycle) s = .next (State.cycleStep^[n] s) :=
  execMany_replicate (fun _ h => exec_tickCycle_of_ready h) (fun _ h => h) n h

/-- `s` with ColorCycle at position `k` of its period of `6 * 128` ticks. -/
def State.atCycle (k : Nat) (s : State) : State := { s with ccIndex := k % 768 / 128, ccStep := k % 128 }

/-- A state in range is at a position of the period. -/
theorem State.atCycle_self {s : State} (hindex : s.ccIndex < 6) (hstep : s.ccStep < 128) :
    s.atCycle (128 * s.ccIndex + s.ccStep) = s := by
  apply State.ext <;> simp only [State.atCycle]
  all_goals omega

theorem State.atCycle_period (k : Nat) (s : State) : s.atCycle (k + 768) = s.atCycle k := by
  have hstep : (k + 768) % 128 = k % 128 := by omega
  rw [State.atCycle, State.atCycle, Nat.add_mod_right, hstep]

/-- A tick moves one position on. -/
theorem State.cycleTick_atCycle (k : Nat) (s : State) : (s.atCycle k).cycleTick = s.atCycle (k + 1) := by
  have hindex : (if k % 128 + 1 = 128 then (k % 768 / 128 + 1) % 6 else k % 768 / 128) = (k + 1) % 768 / 128 := by
    split_ifs <;> omega
  have hstep : (if k % 128 + 1 = 128 then 0 else k % 128 + 1) = (k + 1) % 128 := by split_ifs <;> omega
  rw [State.atCycle, State.atCycle, ← hindex, ← hstep]
  rfl

theorem State.cycleStep_atCycle (k : Nat) (s : State) :
    (s.atCycle k).cycleStep = (s.atCycle (k + 1)).returning (.frame (s.atCycle k).cycleFrame) := by
  rw [State.cycleStep, State.cycleTick_atCycle]

/-- A tick does not read the value returned before it. -/
theorem State.cycleStep_returning (x : Result) (s : State) : (s.returning x).cycleStep = s.cycleStep := rfl

/-- After `n + 1` ticks ColorCycle is `n + 1` positions on, and the frame returned is the one of the position before. -/
theorem State.cycleStep_iterate (k n : Nat) (s : State) :
    State.cycleStep^[n + 1] (s.atCycle k) =
      (s.atCycle (k + n + 1)).returning (.frame (s.atCycle (k + n)).cycleFrame) := by
  induction n with
  | zero => exact s.cycleStep_atCycle k
  | succ n ih =>
    rw [Function.iterate_succ_apply', ih, State.cycleStep_returning]
    exact s.cycleStep_atCycle (k + n + 1)

/-- Settles O29: 128 ticks are one palette entry of the period, 768 the whole of it. -/
theorem cyclePeriod : Obligations.CyclePeriod := by
  intro s hr hindex hstep
  obtain ⟨k, hk, hs⟩ : ∃ k, k = 128 * s.ccIndex ∧ s.atCycle k = s :=
    ⟨_, rfl, by simpa [hstep] using s.atCycle_self hindex (by omega)⟩
  have hticks (n : Nat) : execMany (List.replicate (n + 1) .tickCycle) s =
      .next ((s.atCycle (k + n + 1)).returning (.frame (s.atCycle (k + n)).cycleFrame)) := by
    rw [execMany_tickCycle hr, ← State.cycleStep_iterate, hs]
  refine ⟨⟨_, hticks 127, ?_, ?_⟩, ⟨_, hticks 767, ?_⟩, ?_⟩
  · change (k + 127 + 1) % 768 / 128 = _
    omega
  · change (k + 127 + 1) % 128 = 0
    omega
  · change (s.atCycle (k + 768)).returning _ = s.returning _
    rw [State.atCycle_period, hs]
    rfl
  · intro n t u ht hu
    obtain ⟨⟩ := (hticks n).symm.trans ht
    have hlate := hticks (n + 768)
    rw [← Nat.add_assoc k, State.atCycle_period] at hlate
    obtain ⟨⟩ := hlate.symm.trans hu
    rw [State.returning_ret, State.returning_ret]

/-! Pulse. -/

/-- A channel times a level between 0 and 1 is at most the channel. -/
theorem pulseChannel_le (channel : Nat) {x : Rat} (hx : -1 ≤ x ∧ x ≤ 1) : pulseChannel channel x ≤ channel := by
  have hlow : 0 ≤ (x + 1) / 2 := by linarith
  have hhigh : (x + 1) / 2 ≤ 1 := by linarith
  have hc : (0 : Rat) ≤ channel := Nat.cast_nonneg channel
  exact (trunc_range (a := 0) (by exact_mod_cast mul_nonneg hc hlow) (mul_le_of_le_one_right hc hhigh)).2

/-- Where the sine is 0, half of the channel. -/
theorem pulseChannel_zero (channel : Nat) : pulseChannel channel 0 = channel / 2 := by
  rw [pulseChannel, zero_add, mul_one_div]
  exact_mod_cast trunc_div channel 2

/-- Settles O30: the three channels of `COLOR`, each truncated once. -/
theorem tickPulseResult : Obligations.TickPulseResult := by
  intro s hr
  refine ⟨?_, fun hzero => ?_, ?_⟩
  · rw [exec_tickPulse, asRender_of_ready hr, State.pulseFrame, pulseColor, unpackColor_eq]
    rfl
  · rw [hzero, sine_zero]
    exact congr (congrArg₂ Frame.mk (pulseChannel_zero _) (pulseChannel_zero _)) (pulseChannel_zero _)
  · have hsine := sine_range s.tickPulse s.speed
    exact ⟨pulseChannel_le _ hsine, pulseChannel_le _ hsine, pulseChannel_le _ hsine⟩

/-! Every frame fits three bytes. -/

theorem gradient_fits {level rl blue : Nat} (hlevel : level ≤ 255) (hrl : rl ≤ 100) (hblue : blue ≤ 255) :
    FitsByte (gradient level rl blue) := by
  obtain ⟨hsum, -⟩ := gradient_sum level blue hrl
  exact ⟨by omega, by omega, hblue⟩

theorem State.Inv.cpuFrame_fits {s : State} (h : s.Inv) : FitsByte s.cpuFrame :=
  gradient_fits (s.cpuLevel_range _).2 (follow_le h.rendered h.smoothed) (s.cpuBlue_le.trans (by decide))

theorem State.Inv.cycleFrame_fits {s : State} (h : s.Inv) : FitsByte s.cycleFrame :=
  have hstep := h.cycleStep.le
  ⟨mixChannel_le _ _ hstep, mixChannel_le _ _ hstep, mixChannel_le _ _ hstep⟩

theorem State.pulseFrame_fits (s : State) : FitsByte s.pulseFrame :=
  have hsine := sine_range s.tickPulse s.speed
  have ⟨hr, hg, hb⟩ := unpackColor_fits s.color
  ⟨(pulseChannel_le _ hsine).trans hr, (pulseChannel_le _ hsine).trans hg, (pulseChannel_le _ hsine).trans hb⟩

/-- Masking a channel of at most 255 does not change it. -/
theorem toNat_trunc8_of_le {v : Nat} (h : v ≤ 255) : (trunc8 v).toNat = v := by
  rw [toNat_trunc8, Nat.mod_eq_of_lt (Nat.lt_succ_of_le h)]

/-- Settles O26: each of the four operations returns a frame that fits, and masking keeps it. -/
theorem composedChannelsFitAByte : Obligations.ComposedChannelsFitAByte := by
  intro s c hr hinv i hi
  have hreturns : ∃ t f, exec i s = .next t ∧ t.ret = .frame f ∧ FitsByte f := by
    simp only [List.mem_cons, List.not_mem_nil, or_false] at hi
    rcases hi with rfl | rfl | rfl | rfl
    · exact ⟨_, _, (exec_tickCpuload s).trans (asRender_of_ready hr _), rfl, hinv.cpuFrame_fits⟩
    · exact ⟨_, _, (exec_tickCycle s).trans (asRender_of_ready hr _), rfl, hinv.cycleFrame_fits⟩
    · exact ⟨_, _, (exec_tickPulse s).trans (asRender_of_ready hr _), rfl, s.pulseFrame_fits⟩
    · exact ⟨_, _, (exec_unpack c s).trans (asRender_of_ready hr _), rfl, unpackColor_fits c⟩
  obtain ⟨t, f, ht, hf, hfr, hfg, hfb⟩ := hreturns
  exact ⟨t, f, ht, hf, hfr, hfg, hfb, toNat_trunc8_of_le hfr, toNat_trunc8_of_le hfg, toNat_trunc8_of_le hfb⟩

end Sys2Proof.Machine

/-! SUPPORT. The static mode (42_animation_engine.md R125, R126): its steps by phase, the two sends of a run, and that
it does not look at `STOP`. -/

namespace Sys2Proof.Machine

/-! A static step by its phase. -/

/-- The phases at which the static mode sends, each with the one that follows a frame the sink took. -/
def staticSendPhases : List (StPhase × StPhase) := [(.send1, .pause), (.send2, .done)]

theorem State.staticStep_of_sends {s : State} {from_ to_ : StPhase} (hmem : (from_, to_) ∈ staticSendPhases)
    (hst : s.stPhase = from_) :
    s.staticSends = true ∧ s.stPhase ≠ .done ∧ s.staticStep = s.sendStatic to_ := by
  simp only [staticSendPhases, List.mem_cons, List.not_mem_nil, or_false, Prod.mk.injEq] at hmem
  rcases hmem with ⟨rfl, rfl⟩ | ⟨rfl, rfl⟩
  all_goals exact ⟨by rw [State.staticSends, hst]; rfl, by rw [hst]; decide, by rw [State.staticStep, hst]⟩

theorem State.staticStep_of_pause {s : State} (hst : s.stPhase = .pause) :
    s.staticSends = false ∧ s.staticStep = { s with stPhase := .send2 } :=
  ⟨by rw [State.staticSends, hst]; rfl, by rw [State.staticStep, hst]⟩

theorem State.staticStep_of_done {s : State} (hst : s.stPhase = .done) :
    s.staticSends = false ∧ s.staticStep = s :=
  ⟨by rw [State.staticSends, hst]; rfl, by rw [State.staticStep, hst]⟩

/-- `STEP.STATIC` before `Done`, where the render agent can move and the sink may be written to if it sends. -/
theorem exec_stepStatic_of_ready {s : State} (hr : s.Ready) (hst : s.stPhase ≠ .done)
    (hsink : s.staticSends = true → s.sinkReady = true) : exec .stepStatic s = .next s.staticStep := by
  rw [exec_stepStatic, asRender_of_ready hr, if_neg hst, guardSend_of_ready hsink]

/-- Settles O31: a static step at a sending phase is the `SENDFRAME` and the move of the phase; the others send
nothing. -/
theorem stepStaticSends : Obligations.StepStaticSends := by
  intro s hr
  refine ⟨fun from_ to_ hmem hst hsink => ?_, fun hst => ?_, fun hst => ?_⟩
  · obtain ⟨-, hnot, hstep⟩ := State.staticStep_of_sends hmem hst
    have hready := s.sinkReady_iff.2 hsink
    have hexec := exec_stepStatic_of_ready hr hnot fun _ => hready
    refine ⟨_, exec_sendframe_of_ready hr hready _ _ _, ?_⟩
    rw [hexec, hstep, State.sendStatic_eq, unpackColor_eq]
    refine ⟨fun hf => ?_, fun hf => ⟨?_, ?_⟩⟩
    · rw [if_neg (by simp [hf])]
    · rw [if_pos (Option.isSome_iff_ne_none.2 hf)]
    · obtain ⟨-, ⟨-, -, -, -, -, -, -, -, -, hphase⟩, -⟩ :=
        s.sendFrame_frame (s.color.toNat / 65536) (s.color.toNat / 256 % 256) (s.color.toNat % 256)
      exact hphase.trans hst
  · obtain ⟨hsends, hstep⟩ := State.staticStep_of_pause hst
    rw [exec_stepStatic_of_ready hr (by rw [hst]; decide) (by rw [hsends]; nofun), hstep]
  · rw [exec_stepStatic, asRender_of_ready hr, if_pos hst]

/-! The two sends of the static mode. -/

/-- The sink takes the next frame: the simulation sink, or a device that is initialised and answers so. -/
def State.SinkTakes (s : State) : Prop := s.simulate = true ∨ (s.inited = true ∧ s.sinkAnswer = .ok)

theorem State.SinkTakes.sinkReady {s : State} (h : s.SinkTakes) : s.sinkReady = true :=
  s.sinkReady_iff.2 (h.imp_right And.left)

/-- A frame that the sink takes is appended whole and raises nothing. -/
theorem State.SinkTakes.sendFrame {s : State} (h : s.SinkTakes) (r g b : Nat) :
    (s.sendFrame r g b).fault = s.fault ∧ (s.sendFrame r g b).outStream = s.outStream ++ s.frameBytes r g b := by
  rcases s.sendFrame_cases r g b with ⟨_, e⟩ | ⟨_, _, e⟩ | ⟨hsim, n, hfail, e⟩
  · rw [e, State.sendFrameSim_eq]
    exact ⟨rfl, rfl⟩
  · rw [e, State.sendFrameWith_ok]
    exact ⟨rfl, rfl⟩
  · rcases h with hs | ⟨_, hok⟩
    · exact absurd (hsim.symm.trans hs) (by decide)
    · exact absurd (hfail.symm.trans hok) nofun

/-- The snapshots of the configured colour, encoded from the line state of `s`. -/
def State.staticBytes (s : State) : List Byte :=
  s.frameBytes (unpackColor s.color).r (unpackColor s.color).g (unpackColor s.color).b

/-- Decoding them gives the configured colour. -/
theorem State.decFrameFun_staticBytes (s : State) :
    decFrameFun linePins s.staticBytes = some (unpackColor s.color) := by
  obtain ⟨hr, hg, hb⟩ := unpackColor_fits s.color
  rw [State.staticBytes, State.decFrameFun_frameBytes, Nat.mod_eq_of_lt (Nat.lt_succ_of_le hr),
    Nat.mod_eq_of_lt (Nat.lt_succ_of_le hg), Nat.mod_eq_of_lt (Nat.lt_succ_of_le hb)]

/-- `t` is `s` after a static send that the sink took: the render agent can still move, the registers that the static
mode reads are as they were, and the frame is on `OUTSTREAM`. -/
structure State.StaticSent (s t : State) : Prop where
  ready : t.Ready
  mode : t.mode = s.mode
  color : t.color = s.color
  simulate : t.simulate = s.simulate
  inited : t.inited = s.inited
  stop : t.stop = s.stop
  line : t.ls = s.frameLine (unpackColor s.color).r (unpackColor s.color).g (unpackColor s.color).b
  stream : t.outStream = s.outStream ++ s.staticBytes

theorem State.SinkTakes.sendStatic {s : State} (h : s.SinkTakes) (hr : s.Ready) (following : StPhase) :
    (s.sendStatic following).stPhase = following ∧ s.StaticSent (s.sendStatic following) := by
  obtain ⟨hfault, hstream⟩ := h.sendFrame (unpackColor s.color).r (unpackColor s.color).g (unpackColor s.color).b
  obtain ⟨⟨hmode, -, hcolor, -, -, hsim, -⟩, -, ⟨hstop, hinit, -, -, hexit, -⟩, -, -, hline⟩ :=
    s.sendFrame_frame (unpackColor s.color).r (unpackColor s.color).g (unpackColor s.color).b
  rw [State.sendStatic_eq, if_neg (by simp [hfault, hr.2])]
  exact ⟨rfl, ⟨hexit.trans hr.1, hfault.trans hr.2⟩, hmode, hcolor, hsim, hinit, hstop, hline, hstream⟩

theorem State.StaticSent.leaveLoop {s t : State} (h : s.StaticSent t) : s.StaticSent t.leaveLoop := { h with }

/-- The next frame from rest has the same snapshots: of the line state only DATA may have changed. -/
theorem State.StaticSent.staticBytes {s t : State} (h : s.StaticSent t) (hrest : resting linePins s.ls = true) :
    t.staticBytes = s.staticBytes := by
  obtain ⟨hclock, -⟩ := resting_iff.1 hrest
  obtain ⟨hlow, -, hreserved⟩ :=
    s.frameLine_ends (unpackColor s.color).r (unpackColor s.color).g (unpackColor s.color).b
  rw [← h.line] at hlow hreserved
  rw [State.staticBytes, State.staticBytes, h.color]
  exact congrArg Prod.fst (encFrameFun_congr linePins_distinct (hlow.trans hclock.symm) hreserved _)

/-- `RUNTICK` in the static mode, where the render agent can move and the sink may be written to if it sends. -/
theorem exec_runtick_static {s : State} (hr : s.Ready) (hm : s.mode = .static)
    (hsink : s.staticSends = true → s.sinkReady = true) :
    exec .runtick s = .next (if s.staticStep.stPhase = .done then s.staticStep.leaveLoop else s.staticStep) := by
  rw [exec_runtick, asRender_of_ready hr, State.tickSends, if_pos hm, guardSend_of_ready hsink,
    State.runTick_of_static hm]

/-- An iteration at a sending phase whose frame the sink takes. -/
theorem exec_runtick_static_sends {s : State} (hr : s.Ready) (hm : s.mode = .static) {from_ to_ : StPhase}
    (hmem : (from_, to_) ∈ staticSendPhases) (hst : s.stPhase = from_) (hsink : s.SinkTakes) :
    ∃ t, exec .runtick s = .next t ∧ t.stPhase = to_ ∧ s.StaticSent t := by
  obtain ⟨-, -, hstep⟩ := State.staticStep_of_sends hmem hst
  obtain ⟨hphase, hsent⟩ := hsink.sendStatic hr to_
  refine ⟨_, exec_runtick_static hr hm fun _ => hsink.sinkReady, ?_⟩
  rw [hstep]
  split
  · exact ⟨hphase, hsent.leaveLoop⟩
  · exact ⟨hphase, hsent⟩

/-- An iteration at `Pause`. -/
theorem exec_runtick_static_pause {s : State} (hr : s.Ready) (hm : s.mode = .static) (hst : s.stPhase = .pause) :
    exec .runtick s = .next { s with stPhase := .send2 } := by
  obtain ⟨hsends, hstep⟩ := State.staticStep_of_pause hst
  rw [exec_runtick_static hr hm (by rw [hsends]; nofun), hstep, if_neg nofun]

/-- An iteration at `Done`. -/
theorem exec_runtick_static_done {s : State} (hr : s.Ready) (hm : s.mode = .static) (hst : s.stPhase = .done) :
    exec .runtick s = .next s.leaveLoop := by
  obtain ⟨hsends, hstep⟩ := State.staticStep_of_done hst
  rw [exec_runtick_static hr hm (by rw [hsends]; nofun), hstep, if_pos hst]

/-- Settles O32: a send, a pause and a send, which starts at the line state the first one left. -/
theorem staticSendsExactlyTwice : Obligations.StaticSendsExactlyTwice := by
  intro s hr hm hst hrest hsink
  obtain ⟨t, ht, hpause, first⟩ := exec_runtick_static_sends hr hm (from_ := .send1) (to_ := .pause) (by decide) hst
    (hsink.imp_right fun ⟨hinit, hok, _⟩ => ⟨hinit, hok⟩)
  have hmt : t.mode = .static := first.mode.trans hm
  have hu := exec_runtick_static_pause first.ready hmt hpause
  obtain ⟨v, hv, hdone, second⟩ := exec_runtick_static_sends (s := { t with stPhase := .send2 }) first.ready hmt
    (from_ := .send2) (to_ := .done) (by decide) rfl
    (hsink.imp first.simulate.trans fun ⟨hinit, _, hok⟩ =>
      ⟨first.inited.trans hinit, hok _ (by simp only [execMany, ht, hu])⟩)
  refine ⟨v, s.staticBytes, by simp only [execMany, ht, hu, hv], hdone, second.ready.2, second.stop.trans first.stop,
    s.frameBytes_length _ _ _, ?_, ?_, _, exec_runtick_static_done second.ready (second.mode.trans hmt) hdone, rfl⟩
  · calc v.outStream = t.outStream ++ t.staticBytes := second.stream
      _ = s.outStream ++ s.staticBytes ++ s.staticBytes := by rw [first.stream, first.staticBytes hrest]
  · rw [s.decFrameFun_staticBytes, unpackColor_eq]

/-! The static mode in a state with another `STOP`. -/

theorem State.sendFrame_stop (r g b : Nat) (x : Bool) (s : State) :
    ({ s with stop := x } : State).sendFrame r g b = { s.sendFrame r g b with stop := x } := by
  rcases s.sendFrame_cases r g b with ⟨hs, e⟩ | ⟨hs, ha, e⟩ | ⟨hs, n, ha, e⟩
  · rw [e, State.sendFrame, if_pos hs, State.sendFrameSim_eq, State.sendFrameSim_eq]
    rfl
  · rw [e, State.sendFrame, if_neg (by simp [hs]), show ({ s with stop := x } : State).sinkAnswer = _ from ha,
      State.sendFrameWith_ok, State.sendFrameWith_ok]
    rfl
  · rw [e, State.sendFrame, if_neg (by simp [hs]), show ({ s with stop := x } : State).sinkAnswer = _ from ha,
      State.sendFrameWith_fail, State.sendFrameWith_fail]
    rfl

theorem State.sendStatic_stop (following : StPhase) (x : Bool) (s : State) :
    ({ s with stop := x } : State).sendStatic following = { s.sendStatic following with stop := x } := by
  rw [State.sendStatic_eq, State.sendStatic_eq, State.sendFrame_stop]
  dsimp only
  split <;> rfl

theorem State.staticStep_stop (x : Bool) (s : State) :
    ({ s with stop := x } : State).staticStep = { s.staticStep with stop := x } := by
  unfold State.staticStep
  dsimp only
  split
  case h_1 | h_3 => exact s.sendStatic_stop _ x
  case h_2 | h_4 => rfl

/-- Settles O40: a static step does the same whatever `STOP` is, and so does the end of the loop at `Done`. -/
theorem staticModeIgnoresTheStop : Obligations.StaticModeIgnoresTheStop := by
  intro s t x hm h
  obtain ⟨hr, hguard⟩ := asRender_eq_next.1 h
  obtain ⟨hsink, -⟩ := guardSend_eq_next.1 hguard
  rw [State.tickSends, if_pos hm] at hsink
  obtain ⟨⟩ := (exec_runtick_static hr hm hsink).symm.trans h
  rw [exec_runtick_static (s := { s with stop := x }) hr hm hsink, State.staticStep_stop]
  dsimp only
  split <;> rfl

end Sys2Proof.Machine

/-! SUPPORT. The LoadSampler (43_load_sampler.md R150 to R152): what a sample answers, and what the sampler keeps of
it. -/

namespace Sys2Proof.Machine

/-! The answer of a sample by its two reads. -/

theorem sampleResult_of_reads (a d : Counters) :
    sampleResult ⟨some a, some d⟩ =
      if totalOf (grownBy a d) - totalOf a = 0 then .noValue
      else .percent (100 * (busyOf (grownBy a d) - busyOf a) / (totalOf (grownBy a d) - totalOf a)) := by
  simp only [sampleResult, loadPercent]
  split_ifs <;> rfl

theorem sampleResult_of_failed_read {m : MetricAnswer} (h : m.first = none ∨ m.growth = none) :
    sampleResult m = .raised .metricSourceUnavailable := by
  obtain ⟨first, growth⟩ := m
  rcases h with rfl | rfl
  · rfl
  · cases first <;> rfl

/-- The bound holds of the quotient itself, also where no counter moved. -/
theorem percent_grownBy_le (a d : Counters) :
    100 * (busyOf (grownBy a d) - busyOf a) / (totalOf (grownBy a d) - totalOf a) ≤ 100 := by
  by_cases hstill : totalOf (grownBy a d) - totalOf a = 0
  · rw [hstill, Nat.div_zero]
    exact Nat.zero_le 100
  · exact loadPercent_grownBy_le (if_neg hstill)

/-! The two operations before the end of the run. -/

theorem exec_sample_of_running {s : State} (h : s.exitStatus = none) :
    exec .sample s = .next { s.afterMetricAnswer with ret := sampleResult s.metricAnswer } :=
  whileRunning_of_running h _

theorem exec_smploop_of_running {s : State} (h : s.exitStatus = none) :
    exec .smploop s = .next (s.afterMetricAnswer.keepSample (sampleResult s.metricAnswer)) :=
  whileRunning_of_running h _

/-- Settles O33: the answer by the two reads, and the quotient's bound. -/
theorem sampleMeasuresTheLoad : Obligations.SampleMeasuresTheLoad := by
  intro s hs
  refine ⟨_, exec_sample_of_running hs, fun a d hreads => ?_, sampleResult_of_failed_read⟩
  rw [hreads]
  exact ⟨sampleResult_of_reads a d, percent_grownBy_le a d⟩

/-- Settles O34: `SMPLOOP` keeps the answer `SAMPLE` returns, which is a percentage or is not. -/
theorem smploopKeepsOrHolds : Obligations.SmploopKeepsOrHolds := by
  intro s hs
  refine ⟨_, _, exec_sample_of_running hs, exec_smploop_of_running hs, ?_⟩
  rcases s.afterMetricAnswer.keepSample_eq (sampleResult s.metricAnswer) with ⟨p, hpercent, hkept⟩ | ⟨hnone, hheld⟩
  · refine ⟨fun q hq => ?_, fun hno => absurd hpercent (hno p)⟩
    obtain ⟨⟩ := hpercent.symm.trans hq
    exact hkept
  · exact ⟨fun q hq => absurd hq (hnone q), fun _ => hheld⟩

end Sys2Proof.Machine

/-! SUPPORT. The sink's and the host's operations (44_scheduler_and_sink.md R165 to R170), `CONFIG` of a legal record
(R160) and `INIT` (R162), each by the update it makes of the state. -/

namespace Sys2Proof.Machine

/-! `WRITE`, `SIMWRITE` and `TEARDOWN`. -/

/-- Settles O42: the write's bytes on the stream, the wires and the returned value all follow the one answer. -/
theorem writeHandsOverToTheDevice : Obligations.WriteHandsOverToTheDevice := by
  intro s bytes hr hsim hinit
  have hsink : s.sinkReady = true := s.sinkReady_iff.2 (.inr hinit)
  have hexec : exec (.write bytes) s = .next ((s.deviceWrite bytes).returning (writeResult s.sinkAnswer)) := by
    rw [exec_write, asRender_of_ready hr, if_neg (by simp [hsim]), guardSend_of_ready fun _ => hsink]
  refine ⟨_, hexec, ?_⟩
  rw [State.deviceWrite, State.deviceWriteWith_eq]
  refine ⟨fun hok => ?_, fun n hfail => ?_, rfl⟩
  · rw [hok]
    refine ⟨rfl, rfl, fun x hx => ?_⟩
    simp only [State.returning_phy, wiresFollow, beq_self_eq_true, if_true, hx, Option.map_some, Option.getD_some]
    rfl
  · rw [hfail]
    exact ⟨rfl, rfl⟩

/-- Settles O43: the simulation write and the answer `ok`, where the render agent can move. -/
theorem simwriteAlwaysSucceeds : Obligations.SimwriteAlwaysSucceeds := by
  intro s bytes x hr
  rw [exec_simwrite, asRender_of_ready hr, State.simWrite_eq, State.returning]

/-- The state after a `TEARDOWN` under `SIMULATE`: only the place in the run moves. -/
theorem State.tornDown_of_simulate {s : State} (h : s.simulate = true) :
    s.tornDown = { s with phase := .awaitExit } := by
  simp only [State.tornDown, h, if_true]

/-- The state after a `TEARDOWN` of the device: the call is seen, the wires take a free value. -/
theorem State.tornDown_of_device {s : State} (h : s.simulate = false) :
    s.tornDown = { s with
      phase := .awaitExit
      events := s.events ++ [.teardown]
      phy := Config.wires s.draws
      draws := s.draws + 1 } := by
  simp only [State.tornDown, h, Bool.false_eq_true, if_false]

/-- Settles O44: `TEARDOWN` with and without a device. -/
theorem teardownReleasesTheDevice : Obligations.TeardownReleasesTheDevice := by
  intro s hr
  rw [exec_teardown, asRender_of_ready hr]
  refine ⟨fun hsim => ?_, fun hsim => ⟨Config.wires s.draws, ?_⟩⟩
  · rw [State.tornDown_of_simulate hsim]
  · rw [State.tornDown_of_device hsim]

/-! The end of the run, and the host. -/

theorem asRender_of_ended {s : State} (h : s.ended = true) (o : StepOutcome) : asRender s o = .fault .runEnded :=
  if_pos h

theorem whileRunning_of_ended {s : State} (h : s.ended = true) (o : StepOutcome) :
    whileRunning s o = .fault .runEnded :=
  if_pos h

/-- After `EXIT` no operation of any agent has a step; `DECFRAME` is no agent's (44_scheduler_and_sink.md R169). -/
theorem exec_of_ended {i : Instr} {s : State} (h : s.ended = true) (hi : ∀ bytes, i ≠ .decframe bytes) :
    exec i s = .fault .runEnded := by
  cases i with
  | decframe bytes => exact absurd rfl (hi bytes)
  | sample | smploop | stopreq => exact whileRunning_of_ended h _
  | exit code => exact if_pos h
  | setd _ | clkh | clkl | emit | encbit _ | encbyte _ | encframe _ _ _ | sendframe _ _ _ | tickCpuload | tickCycle
  | tickPulse | stepStatic | unpack _ | config _ | init | runtick | write _ | simwrite _ _ | teardown =>
    exact asRender_of_ended h _

theorem nextAction_of_ended {s : State} (h : s.ended = true) : nextAction s = .stop .runEnded := if_pos h

/-- After `EXIT` the machine's own order has no step. -/
theorem step_of_ended {s : State} (hi : s.issue = []) (h : s.ended = true) : step s = .fault .runEnded := by
  rw [step_of_nothing_issued hi, nextAction_of_ended h]
  rfl

theorem statusOf_fail_ne_zero : statusOf .fail ≠ 0 := exitFail_ne_zero

/-- Settles O45: `EXIT` is the end of the run, and the state it leaves has ended. -/
theorem exitEndsTheRun : Obligations.ExitEndsTheRun := by
  intro s code hx hcode
  have hended : s.ended = false := by simp [State.ended, hx]
  have hallowed : ¬(s.fault.isSome = true ∧ code = .ok) := by
    rintro ⟨hf, rfl⟩
    rcases hcode with hnone | hfail
    · simp [hnone] at hf
    · cases hfail
  have hafter : (s.endRun (statusOf code)).ended = true := rfl
  refine ⟨_, statusOf code, exec_exit_eq_next.2 ⟨hended, hallowed, rfl⟩, ?_, ?_, s.endRun_eq _, fun i hi => ?_,
    fun hissue => ?_⟩
  · rintro rfl
    rfl
  · rintro rfl
    exact statusOf_fail_ne_zero
  · exact exec_of_ended hafter hi
  · exact step_of_ended hissue hafter

/-- `STOPREQ` before the end of a run that no fatal exception has stopped. -/
theorem exec_stopreq_of_ready {s : State} (h : s.Ready) : exec .stopreq s = .next { s with stop := true } := by
  rw [exec_stopreq, whileRunning_of_running h.1, if_neg (by simp [h.2])]

/-- Settles O46: a second request finds `STOP` set and the render agent still able to move. -/
theorem stopreqSetsStopOnly : Obligations.StopreqSetsStopOnly := by
  intro s hx
  refine ⟨fun hf => ?_, fun hf => ?_⟩
  · have hr : s.Ready := ⟨hx, hf⟩
    have honce := exec_stopreq_of_ready hr
    have hagain : exec .stopreq { s with stop := true } = .next { s with stop := true } :=
      exec_stopreq_of_ready (s := { s with stop := true }) hr
    exact ⟨honce, by simp only [execMany, honce, hagain]⟩
  · rw [exec_stopreq, whileRunning_of_running hx, if_pos (Option.isSome_iff_ne_none.2 hf)]

/-! `CONFIG` of a legal record. -/

/-- A legal option is absent, and its default counts, or given. -/
theorem suppliedOr_of_ne_bad {α : Type} {x : Supplied α} (h : x ≠ .bad) (default : α) :
    (x = .absent ∧ suppliedOr default x = default) ∨ x = .given (suppliedOr default x) := by
  cases x with
  | absent => exact .inl ⟨rfl, rfl⟩
  | bad => exact absurd rfl h
  | given v => exact .inr rfl

theorem suppliedOr_false_iff (x : Supplied Bool) : suppliedOr false x = true ↔ x = .given true := by
  cases x <;> simp [suppliedOr]

/-- A legal speed (30_encoding.md R68): the default, 1 for 0, or the one given. -/
theorem coerceSpeed_suppliedOr {x : Supplied Nat} (h : x ≠ .bad) {n : Nat}
    (hn : n = coerceSpeed (suppliedOr defaultSpeed x)) :
    (x = .absent ∧ n = 100) ∨ (x = .given 0 ∧ n = 1) ∨ (x = .given n ∧ 1 ≤ n) := by
  subst hn
  cases x with
  | absent => exact .inl ⟨rfl, rfl⟩
  | bad => exact absurd rfl h
  | given v =>
    cases v with
    | zero => exact .inr (.inl ⟨rfl, rfl⟩)
    | succ v => exact .inr (.inr ⟨rfl, one_le_coerceSpeed _⟩)

/-- A legal colour: the default, or the number given, which fits 24 bits. -/
theorem color_suppliedOr {x : Supplied Nat} (h : x ≠ .bad) (hfits : ∀ n, x = .given n → n < 2 ^ 24) {c : BitVec 24}
    (hc : c = BitVec.ofNat 24 (suppliedOr defaultColor.toNat x)) :
    (x = .absent ∧ c = 0xFFFFFF) ∨ x = .given c.toNat := by
  subst hc
  cases x with
  | absent => exact .inl ⟨rfl, rfl⟩
  | bad => exact absurd rfl h
  | given v =>
    have htoNat : (BitVec.ofNat 24 v).toNat = v := Nat.mod_eq_of_lt (hfits v rfl)
    exact .inr (congrArg Supplied.given htoNat.symm)

/-- Settles O35: a record with no illegal option is latched, option by option. -/
theorem configLatchesALegalRecord : Obligations.ConfigLatchesALegalRecord := by
  intro s c hr hp hmode hspeed hcolor hfits hbeat hthrob hsim hdebug hunknown
  have hlegal : illegalOptions c = [] :=
    (illegalOptions_eq_nil c).2 ⟨hmode, hspeed, ⟨hcolor, hfits⟩, hbeat, hthrob, hsim, hdebug, hunknown⟩
  have hexec : exec (.config c) s = .next (s.latchConfig c) := by
    rw [exec_config, asRender_of_ready hr, if_pos hp, State.configure, if_pos hlegal]
  exact ⟨_, hexec, suppliedOr_of_ne_bad hmode _, coerceSpeed_suppliedOr hspeed rfl,
    color_suppliedOr hcolor hfits rfl, suppliedOr_false_iff _, suppliedOr_false_iff _, suppliedOr_false_iff _,
    suppliedOr_false_iff _, rfl⟩

/-! `INIT`. -/

theorem phaseAfterInit_eq (p : RunPhase) :
    phaseAfterInit p = if p = .awaitOpen ∨ p = .awaitInit then .awaitSampler else p := by
  cases p <;> rfl

/-- `INIT` of a device, not yet initialised, under its answer. -/
theorem exec_init_of_device {s : State} (hr : s.Ready) (hsim : s.simulate = false) (hinit : s.inited = false) :
    exec .init s = .next (s.afterDeviceAnswer.initWith s.deviceAnswer) := by
  rw [exec_init, asRender_of_ready hr, if_neg (by simp [hsim]), if_neg (by simp [hinit])]

/-- Settles O37: `INIT` by the device's answer, and its skip under `SIMULATE`. -/
theorem initEntersBitbangMode : Obligations.InitEntersBitbangMode := by
  intro s hr
  simp only [← phaseAfterInit_eq]
  refine ⟨fun hsim hinit => ⟨_, exec_init_of_device hr hsim hinit, ?_⟩, fun hsim => ?_⟩
  · cases s.deviceAnswer with
    | true =>
      rw [State.initWith_true]
      exact ⟨fun _ => ⟨rfl, hr.2, rfl, rfl⟩, nofun, rfl⟩
    | false =>
      rw [State.initWith_false]
      exact ⟨nofun, fun _ => ⟨hinit, rfl, rfl, List.append_assoc _ _ _⟩, rfl⟩
  · rw [exec_init, asRender_of_ready hr, if_pos hsim]

end Sys2Proof.Machine

/-! SUPPORT. The render loop (44_scheduler_and_sink.md R163, R164, R171): an iteration as the tick operation and the
`SENDFRAME` it stands for, a static iteration as `STEP.STATIC`, and where the loop is left to. -/

namespace Sys2Proof.Machine

/-! Leaving the loop. -/

/-- The loop is left to `EXIT` under `SIMULATE` and once `TEARDOWN` has been performed, otherwise to `TEARDOWN`. -/
theorem State.leaveLoop_goes (s : State) :
    s.leaveLoop = { s with phase := s.leaveLoop.phase } ∧ (s.simulate = true → s.leaveLoop.phase = .awaitExit) ∧
      (s.simulate = false → s.phase ≠ .awaitExit → s.leaveLoop.phase = .awaitTeardown) :=
  ⟨rfl, fun hsim => if_pos (.inl hsim), fun hsim hp => if_neg (by simp [hsim, hp])⟩

/-- `RUNTICK` where the render agent can move and the sink may be written to if it sends. -/
theorem exec_runtick_of_ready {s : State} (hr : s.Ready) (hsink : s.tickSends = true → s.sinkReady = true) :
    exec .runtick s = .next s.runTick := by
  rw [exec_runtick, asRender_of_ready hr, guardSend_of_ready hsink]

/-- Settles O39: an iteration that finds a stop, or `Done`, is the end of the loop. -/
theorem runtickLeavesTheLoop : Obligations.RuntickLeavesTheLoop := by
  intro s hr hleave
  have hexec : exec .runtick s = .next s.leaveLoop := by
    rcases hleave with ⟨hm, hs⟩ | ⟨hm, hst⟩
    · have hsends : s.tickSends = false := by rw [State.tickSends, if_neg hm, hs]; rfl
      rw [exec_runtick_of_ready hr (by rw [hsends]; nofun), State.runTick_of_stop hm hs]
    · exact exec_runtick_static_done hr hm hst
  exact ⟨_, hexec, s.leaveLoop_goes⟩

/-! The tick of a looping mode. -/

/-- The tick operation of a looping mode returns the frame of the tick. -/
theorem exec_tickOperation_of_ready {s : State} (hr : s.Ready) (hm : s.mode ≠ .static) :
    exec (tickOperation s.mode) s = .next (s.tickState.returning (.frame s.tickFrame)) := by
  unfold State.tickState State.tickFrame
  cases h : s.mode with
  | cpuLoad | colorCycle | pulse => exact asRender_of_ready hr _
  | static => exact absurd h hm

/-- A `SENDFRAME` neither reads nor writes the returned value. -/
theorem State.sendFrame_returning (r g b : Nat) (x : Result) (s : State) :
    (s.returning x).sendFrame r g b = (s.sendFrame r g b).returning x := by
  rcases s.sendFrame_cases r g b with ⟨hs, e⟩ | ⟨hs, ha, e⟩ | ⟨hs, n, ha, e⟩
  · rw [e, State.sendFrame, State.returning_simulate, if_pos hs, State.sendFrameSim_eq, State.sendFrameSim_eq]
    rfl
  · rw [e, State.sendFrame, if_neg (by simp [hs]), show (s.returning x).sinkAnswer = _ from ha,
      State.sendFrameWith_ok, State.sendFrameWith_ok]
    rfl
  · rw [e, State.sendFrame, if_neg (by simp [hs]), show (s.returning x).sinkAnswer = _ from ha,
      State.sendFrameWith_fail, State.sendFrameWith_fail]
    rfl

/-- The tick operation changes none of the registers that decide whether a frame may be sent, nor the debug option; its
update leaves the returned value as it was. -/
theorem State.tickState_registers (s : State) :
    s.tickState.simulate = s.simulate ∧ s.tickState.debug = s.debug ∧ s.tickState.ret = s.ret := by
  unfold State.tickState
  split <;> exact ⟨rfl, rfl, rfl⟩

theorem State.debugTick_of_off {s : State} (h : s.debug = false) : s.debugTick = s := by
  obtain ⟨-, -, hnone⟩ := s.debugSeen_isDebugText
  rw [State.debugTick_eq, hnone h, List.append_nil]

/-- An iteration without the debug option is the frame of the tick sent from the state the tick operation leaves; only
the value that operation returned is not kept. -/
theorem State.runTick_eq_tick_then_send {s : State} (hm : s.mode ≠ .static) (hs : s.stop = false)
    (hd : s.debug = false) :
    s.runTick = { (s.tickState.returning (.frame s.tickFrame)).sendFrame s.tickFrame.r s.tickFrame.g s.tickFrame.b with
      ret := s.ret } := by
  obtain ⟨-, hdebug, hret⟩ := s.tickState_registers
  obtain ⟨-, -, ⟨-, -, -, -, -, hkept, -⟩, -⟩ :=
    s.tickState.sendFrame_frame s.tickFrame.r s.tickFrame.g s.tickFrame.b
  rw [State.runTick_of_tick hm hs, State.debugTick_of_off (hdebug.trans hd), State.sendFrame_returning,
    ← hret, ← hkept]
  rfl

/-! The iteration of the static mode. -/

/-- A static send stays in its phase after a `WriteFailure` and moves on otherwise (42_animation_engine.md R125,
95_test_vectors.md P6). -/
theorem State.sendStatic_phase (following : StPhase) (s : State) :
    ((s.sendStatic following).fault ≠ none → (s.sendStatic following).stPhase = s.stPhase) ∧
      ((s.sendStatic following).fault = none → (s.sendStatic following).stPhase = following) := by
  obtain ⟨-, ⟨-, -, -, -, -, -, -, -, -, hst⟩, -⟩ :=
    s.sendFrame_frame (unpackColor s.color).r (unpackColor s.color).g (unpackColor s.color).b
  rw [State.sendStatic_eq]
  split
  case isTrue hf => exact ⟨fun _ => hst, fun hn => absurd hn (Option.isSome_iff_ne_none.1 hf)⟩
  case isFalse hf => exact ⟨fun hn => absurd (Option.isSome_iff_ne_none.2 hn) hf, fun _ => rfl⟩

/-- Where a static step before `Done` goes: nowhere after a `WriteFailure`, otherwise to the phase that follows. -/
theorem State.staticStep_phase {s : State} (hf : s.fault = none) (hst : s.stPhase ≠ .done) :
    (s.staticStep.fault ≠ none → s.staticStep.stPhase = s.stPhase) ∧
      (s.staticStep.fault = none → (s.stPhase = .send1 ∧ s.staticStep.stPhase = .pause) ∨
        (s.stPhase = .pause ∧ s.staticStep.stPhase = .send2) ∨
        (s.stPhase = .send2 ∧ s.staticStep.stPhase = .done)) := by
  cases h : s.stPhase with
  | send1 =>
    obtain ⟨-, -, e⟩ := State.staticStep_of_sends (from_ := .send1) (to_ := .pause) (by decide) h
    obtain ⟨hstays, hmoves⟩ := s.sendStatic_phase .pause
    rw [e]
    exact ⟨fun hn => (hstays hn).trans h, fun hn => .inl ⟨rfl, hmoves hn⟩⟩
  | pause =>
    obtain ⟨-, e⟩ := State.staticStep_of_pause h
    rw [e]
    exact ⟨fun hn => absurd hf hn, fun _ => .inr (.inl ⟨rfl, rfl⟩)⟩
  | send2 =>
    obtain ⟨-, -, e⟩ := State.staticStep_of_sends (from_ := .send2) (to_ := .done) (by decide) h
    obtain ⟨hstays, hmoves⟩ := s.sendStatic_phase .done
    rw [e]
    exact ⟨fun hn => (hstays hn).trans h, fun hn => .inr (.inr ⟨rfl, hmoves hn⟩)⟩
  | done => exact absurd h hst

theorem State.sendStatic_simulate (following : StPhase) (s : State) :
    (s.sendStatic following).simulate = s.simulate := by
  obtain ⟨⟨-, -, -, -, -, hsim, -⟩, -⟩ :=
    s.sendFrame_frame (unpackColor s.color).r (unpackColor s.color).g (unpackColor s.color).b
  rw [State.sendStatic_eq]
  split <;> exact hsim

theorem State.staticStep_simulate (s : State) : s.staticStep.simulate = s.simulate := by
  unfold State.staticStep
  split
  case h_1 | h_3 => exact s.sendStatic_simulate _
  case h_2 | h_4 => rfl

/-- A static step sends nothing at `Pause`; at the other phases before `Done` the sink may be written to. -/
theorem State.sinkReady_of_staticSends {s : State} (hsink : s.stPhase = .pause ∨ s.simulate = true ∨ s.inited = true)
    (hsends : s.staticSends = true) : s.sinkReady = true := by
  rcases hsink with hpause | hready
  · obtain ⟨hnot, -⟩ := State.staticStep_of_pause hpause
    exact absurd (hnot.symm.trans hsends) (by decide)
  · exact s.sinkReady_iff.2 hready

/-- Settles O38: an iteration of a looping mode is its tick operation and a `SENDFRAME`, one of the static mode is
`STEP.STATIC`, which leaves the loop where it reaches `Done`. -/
theorem runtickSendsTheFrameOfTheMode : Obligations.RuntickSendsTheFrameOfTheMode := by
  refine ⟨fun s hr hm hs hd hsink => ?_, fun s hr hm hst hsink => ?_⟩
  · have hready := s.sinkReady_iff.2 hsink
    obtain ⟨-, -, hexit, hinit, hfault⟩ := s.tickState_frame
    obtain ⟨hsim, -, -⟩ := s.tickState_registers
    have htick : (s.tickState.returning (.frame s.tickFrame)).Ready := ⟨hexit.trans hr.1, hfault.trans hr.2⟩
    have hsend : (s.tickState.returning (.frame s.tickFrame)).sinkReady = true :=
      (State.sinkReady_iff _).2 (hsink.imp hsim.trans hinit.trans)
    refine ⟨_, s.tickFrame, _, exec_tickOperation_of_ready hr hm, rfl, exec_sendframe_of_ready htick hsend _ _ _, ?_,
      fun h => by rw [h]; rfl, fun h => by rw [h]; rfl, fun h => by rw [h]; rfl⟩
    rw [exec_runtick_of_ready hr fun _ => hready, State.runTick_eq_tick_then_send hm hs hd]
  · have hguard := State.sinkReady_of_staticSends hsink
    obtain ⟨hstays, hmoves⟩ := State.staticStep_phase hr.2 hst
    obtain ⟨-, hphase, -⟩ := s.staticStep_frame
    obtain ⟨hplace, hsimulated, hdevice⟩ := s.staticStep.leaveLoop_goes
    rw [s.staticStep_simulate] at hsimulated hdevice
    rw [hphase] at hdevice
    refine ⟨_, _, exec_stepStatic_of_ready hr hst hguard, exec_runtick_static hr hm hguard,
      fun hf => ⟨hstays hf, if_neg (hstays hf ▸ hst)⟩, hmoves, fun hnot => if_neg hnot, fun hdone => ?_⟩
    rw [if_pos hdone]
    exact ⟨hplace, hsimulated, hdevice⟩

end Sys2Proof.Machine

/-! SUPPORT. The machine's own order (44_scheduler_and_sink.md R161): which agent moves, what the render agent does at
each place of a run, that a run always has a step until `EXIT`, and what the step that ends it leaves (R173). -/

namespace Sys2Proof.Machine

/-! Which agent moves. -/

theorem State.ended_iff (s : State) : s.ended = true ↔ s.exitStatus ≠ none := by
  simp [State.ended, Option.isSome_iff_ne_none]

/-- After a fatal exception the machine's own order is `EXIT EXIT_FAIL` (60_exceptions.md R185). -/
theorem nextAction_of_fault {s : State} (hx : s.exitStatus = none) (hf : s.fault ≠ none) :
    nextAction s = .perform (.exit .fail) s := by
  rw [nextAction, if_neg (by simp [State.ended, hx]), if_pos (Option.isSome_iff_ne_none.2 hf)]

theorem nextAction_of_sampler {s : State} (hr : s.Ready) (ha : s.nextAgent = .sampler) (hon : s.samplerOn = true) :
    nextAction s = .perform .smploop s.afterNextAgent := by
  obtain ⟨he, hf⟩ := s.ready_iff.1 hr
  simp [nextAction, he, hf, ha, hon]

theorem nextAction_of_host {s : State} (hr : s.Ready) (ha : s.nextAgent = .host) :
    nextAction s = .perform .stopreq s.afterNextAgent := by
  obtain ⟨he, hf⟩ := s.ready_iff.1 hr
  simp [nextAction, he, hf, ha]

/-- The render agent moves in its turn, and in that of a sampler that has not been started. -/
theorem nextAction_of_render {s : State} (hr : s.Ready)
    (ha : s.nextAgent = .render ∨ (s.nextAgent = .sampler ∧ s.samplerOn = false)) :
    nextAction s = renderAction s.afterNextAgent := by
  obtain ⟨he, hf⟩ := s.ready_iff.1 hr
  rcases ha with ha | ⟨ha, hoff⟩
  · simp [nextAction, he, hf, ha]
  · simp [nextAction, he, hf, ha, hoff]

/-- Settles O6: the choice of the agent, then the render agent's action at its place in the run. -/
theorem ownOrderOfARun : Obligations.OwnOrderOfARun := by
  intro s hi
  simp only [step_of_nothing_issued hi]
  refine ⟨fun hx => ?_, fun hx hf => ?_, fun hr ha hon => ?_, fun hr ha => ?_, fun hr ha => ?_⟩
  · rw [nextAction_of_ended (s.ended_iff.2 hx)]
    rfl
  · rw [nextAction_of_fault hx hf]
    rfl
  · rw [nextAction_of_sampler hr ha hon]
    rfl
  · rw [nextAction_of_host hr ha]
    rfl
  · rw [nextAction_of_render hr ha]
    refine ⟨fun hp => ?_, fun hp => ⟨fun hopens => ?opens, fun hfails => ?fails⟩, fun hp => ?_, fun hp => ?_,
      fun hp => ?_, fun hp => ?_, fun hp => ?_⟩ <;> rw [renderAction, State.afterNextAgent_phase, hp]
    case opens =>
      dsimp only
      rw [hopens, State.openWith_true]
      rfl
    case fails =>
      dsimp only
      rw [hfails, State.openWith_false, List.append_assoc]
      rfl
    all_goals rfl

/-! A step until `EXIT`. -/

/-- In a run the sink may be written to in the render loop: it is the simulation sink, or the device was initialised
before the loop. -/
theorem State.RunInv.sinkReady {s : State} (h : s.RunInv) (hp : s.phase = .looping) : s.sinkReady = true := by
  rw [State.sinkReady_iff]
  cases hsim : s.simulate
  · exact .inr (h.initialised (by rw [hp]; rfl) hsim)
  · exact .inl rfl

/-- In a run the render agent has a step at every place of it, until `EXIT` or a fatal exception. -/
theorem State.RunInv.renderAction_next {s : State} (h : s.RunInv) (hr : s.Ready) :
    ∃ t, (renderAction s).result = .next t := by
  unfold renderAction
  cases hp : s.phase with
  | awaitConfig => exact ⟨s.afterHostRecord.configure s.hostRecord, asRender_eq_next.2 ⟨hr, if_pos hp⟩⟩
  | awaitOpen => exact ⟨_, rfl⟩
  | awaitInit =>
    have hsim : s.simulate = false := h.deviceRun (.inr (.inl hp))
    exact ⟨_, exec_init_of_device hr hsim (h.notInitialised (by rw [hp]; rfl))⟩
  | awaitSampler => exact ⟨_, rfl⟩
  | looping => exact ⟨_, exec_runtick_of_ready hr fun _ => h.sinkReady hp⟩
  | awaitTeardown => exact ⟨_, asRender_of_ready hr _⟩
  | awaitExit =>
    obtain ⟨he, hf⟩ := s.ready_iff.1 hr
    exact ⟨_, exec_exit_eq_next.2 ⟨he, by simp [hf], rfl⟩⟩

/-- Settles O57: whichever agent moves has a step, and none has one after `EXIT`. -/
theorem ownOrderAlwaysHasAStep : Obligations.OwnOrderAlwaysHasAStep := by
  intro s h
  refine ⟨fun hx => ?_, fun hx => step_of_ended h.nothingIssued (s.ended_iff.2 hx)⟩
  rw [step_of_nothing_issued h.nothingIssued]
  rcases nextAction_cases s with ⟨he, _⟩ | ⟨he, _, e⟩ | ⟨hr, _, e⟩ | ⟨hr, e⟩ | ⟨hr, e⟩
  · exact absurd hx (s.ended_iff.1 he)
  · rw [e]
    exact ⟨_, exec_exit_eq_next.2 ⟨he, by simp, rfl⟩⟩
  · rw [e]
    exact ⟨_, exec_smploop_of_running hr.1⟩
  · rw [e]
    exact ⟨_, exec_stopreq_of_ready (s := s.afterNextAgent) hr⟩
  · rw [e]
    exact h.afterNextAgent.renderAction_next hr

/-! The step that ends a run. -/

theorem State.keepSample_exitStatus (x : Result) (s : State) : (s.keepSample x).exitStatus = s.exitStatus := by
  cases x <;> rfl

theorem State.configure_exitStatus (c : ConfigRecord) (s : State) : (s.configure c).exitStatus = s.exitStatus := by
  unfold State.configure
  split <;> rfl

theorem State.openWith_exitStatus (answer : Bool) (s : State) : (s.openWith answer).exitStatus = s.exitStatus := by
  cases answer <;> rfl

theorem State.initWith_exitStatus (answer : Bool) (s : State) : (s.initWith answer).exitStatus = s.exitStatus := by
  cases answer <;> rfl

theorem State.runTick_exitStatus (s : State) : s.runTick.exitStatus = s.exitStatus := by
  obtain ⟨_, _, hstatic, _⟩ := s.staticStep_frame
  rcases s.runTick_cases with ⟨_, _, e⟩ | ⟨_, _, e⟩ | ⟨_, _, e⟩ | ⟨_, _, e⟩ <;> rw [e]
  · exact hstatic
  · exact hstatic
  · rfl
  · obtain ⟨_, _, ⟨_, _, _, _, hsend, _⟩, _⟩ :=
      s.tickState.debugTick.sendFrame_frame s.tickFrame.r s.tickFrame.g s.tickFrame.b
    obtain ⟨_, _, htick, _⟩ := s.tickState_frame
    exact hsend.trans htick

/-- A step of a run that no fatal exception has stopped ends the run only in the place of `EXIT`, with status 0. -/
theorem OwnStep.exit_of_ended {s t : State} (ht : OwnStep s t) (hx : t.exitStatus ≠ s.exitStatus) :
    s.phase = .awaitExit ∧ t = s.endRun 0 := by
  cases ht with
  | exit hp => exact ⟨hp, rfl⟩
  | smploop => exact absurd (State.keepSample_exitStatus _ _) hx
  | config _ => exact absurd (State.configure_exitStatus _ _) hx
  | openDevice _ => exact absurd (State.openWith_exitStatus _ _) hx
  | init _ => exact absurd (State.initWith_exitStatus _ _) hx
  | tick _ _ => exact absurd s.runTick_exitStatus hx
  | stopreq | startSampler _ | teardown _ => exact absurd rfl hx

/-- What holds in a run at the place of `EXIT` without a fault (44_scheduler_and_sink.md R173): the loop was left after
a stop or at `Done`, `TEARDOWN` was performed, and the encoder is at rest behind whole frames. -/
theorem State.RunInv.at_exit {s : State} (h : s.RunInv) (hf : s.fault = none) (hp : s.phase = .awaitExit) :
    (s.stop = true ∨ (s.mode = .static ∧ s.stPhase = .done)) ∧ (s.simulate = false → Event.teardown ∈ s.events) ∧
      72 ∣ s.outStream.length ∧ s.pos = 0 ∧ s.out = [] ∧ resting linePins s.ls = true := by
  obtain ⟨hdone, hstop⟩ := h.loopLeft (.inr hp)
  refine ⟨?_, h.tornDownOnce hp, h.whole (by simp [hf]), ?_, h.empty, resting_iff.2 ⟨h.clockLow, h.inv.reserved⟩⟩
  · by_cases hm : s.mode = .static
    · exact .inr ⟨hm, hdone hm⟩
    · exact .inl (hstop hm)
  · rw [h.inv.position, h.empty]
    rfl

/-- Settles O58: the run ends with `EXIT EXIT_FAIL` after a fatal exception, or at the place of `EXIT` with status 0. -/
theorem endedWell : Obligations.EndedWell := by
  intro s t status h hx hn ht
  rcases h.step_cases hn with ⟨_, hf, rfl⟩ | ⟨hr, hown⟩
  · obtain ⟨⟩ := ht
    exact ⟨rfl, rfl, rfl, fun hzero => absurd hzero exitFail_ne_zero, fun _ => hf⟩
  · obtain ⟨hp, rfl⟩ := hown.exit_of_ended (by rw [ht, State.afterNextAgent_exitStatus, hx]; nofun)
    obtain ⟨⟩ := ht
    obtain ⟨hleft, htorn, hwhole, hpos, hout, hrest⟩ := h.at_exit hr.2 hp
    exact ⟨rfl, rfl, rfl, fun _ => ⟨hleft, hr.2, fun hsim => List.mem_append_left _ (htorn hsim), hwhole, hpos, hout,
      hrest⟩, fun hne => absurd rfl hne⟩

end Sys2Proof.Machine

/-! SUPPORT. Who may write what (60_exceptions.md R194): the state in pieces, the pieces each operation may write, and
that it leaves the others as they were. -/

namespace Sys2Proof.Machine

/-! The pieces of the state. -/

/-- The pieces of state that have an owner of their own (10_state.md, 60_exceptions.md R194); `Piece.content` says what
each holds. -/
inductive Piece where
  | line
  | latch
  | buffer
  | stream
  | wires
  | fault
  | load
  | config
  | stop
  | inited
  | cpuLoad
  | colorCycle
  | pulse
  | static

def Piece.Content : Piece → Type
  | .line => Byte
  | .latch => Byte × Byte × Byte
  | .buffer => List Byte × Nat
  | .stream => List Byte
  | .wires => Wires
  | .fault => Option FatalCause
  | .load => Nat × Nat × Bool
  | .config => Mode × Nat × BitVec 24 × Bool × Bool × Bool × Bool
  | .stop => Bool
  | .inited => Bool
  | .cpuLoad => Nat × Nat × Nat
  | .colorCycle => Nat × Nat
  | .pulse => Nat
  | .static => StPhase

def Piece.content : (p : Piece) → State → p.Content
  | .line, s => s.ls
  | .latch, s => (s.frR, s.frG, s.frB)
  | .buffer, s => (s.out, s.pos)
  | .stream, s => s.outStream
  | .wires, s => s.phy
  | .fault, s => s.fault
  | .load, s => (s.smoothedLoad, s.smpLast, s.smpHave)
  | .config, s => (s.mode, s.speed, s.color, s.beat, s.throb, s.simulate, s.debug)
  | .stop, s => s.stop
  | .inited, s => s.inited
  | .cpuLoad, s => (s.renderedLoad, s.tickBeat, s.tickThrob)
  | .colorCycle, s => (s.ccIndex, s.ccStep)
  | .pulse, s => s.tickPulse
  | .static, s => s.stPhase

/-- `t` differs from `s` at most in the pieces `ps`, and in what no piece holds: the place in the run, what was
observed and returned, and the inputs. -/
def State.WritesOnly (ps : List Piece) (s t : State) : Prop := ∀ p ∉ ps, p.content t = p.content s

theorem State.WritesOnly.mono {ps qs : List Piece} {s t : State} (h : s.WritesOnly ps t) (hsub : ps ⊆ qs) :
    s.WritesOnly qs t :=
  fun p hp => h p fun hmem => hp (hsub hmem)

theorem State.WritesOnly.trans {ps : List Piece} {s t u : State} (h : s.WritesOnly ps t) (h' : t.WritesOnly ps u) :
    s.WritesOnly ps u :=
  fun p hp => (h' p hp).trans (h p hp)

/-- Which pieces are written, register by register. -/
theorem State.writesOnly_iff {ps : List Piece} {s t : State} :
    s.WritesOnly ps t ↔
      (.line ∉ ps → t.ls = s.ls) ∧ (.latch ∉ ps → t.frR = s.frR ∧ t.frG = s.frG ∧ t.frB = s.frB) ∧
      (.buffer ∉ ps → t.out = s.out ∧ t.pos = s.pos) ∧ (.stream ∉ ps → t.outStream = s.outStream) ∧
      (.wires ∉ ps → t.phy = s.phy) ∧ (.fault ∉ ps → t.fault = s.fault) ∧
      (.load ∉ ps → t.smoothedLoad = s.smoothedLoad ∧ t.smpLast = s.smpLast ∧ t.smpHave = s.smpHave) ∧
      (.config ∉ ps → t.mode = s.mode ∧ t.speed = s.speed ∧ t.color = s.color ∧ t.beat = s.beat ∧
        t.throb = s.throb ∧ t.simulate = s.simulate ∧ t.debug = s.debug) ∧
      (.stop ∉ ps → t.stop = s.stop) ∧ (.inited ∉ ps → t.inited = s.inited) ∧
      (.cpuLoad ∉ ps → t.renderedLoad = s.renderedLoad ∧ t.tickBeat = s.tickBeat ∧ t.tickThrob = s.tickThrob) ∧
      (.colorCycle ∉ ps → t.ccIndex = s.ccIndex ∧ t.ccStep = s.ccStep) ∧
      (.pulse ∉ ps → t.tickPulse = s.tickPulse) ∧ (.static ∉ ps → t.stPhase = s.stPhase) := by
  have hpieces {P : Piece → Prop} : (∀ p, P p) ↔ P .line ∧ P .latch ∧ P .buffer ∧ P .stream ∧ P .wires ∧ P .fault ∧
      P .load ∧ P .config ∧ P .stop ∧ P .inited ∧ P .cpuLoad ∧ P .colorCycle ∧ P .pulse ∧ P .static :=
    ⟨fun h => ⟨h _, h _, h _, h _, h _, h _, h _, h _, h _, h _, h _, h _, h _, h _⟩,
      fun ⟨_, _, _, _, _, _, _, _, _, _, _, _, _, _⟩ p => by cases p <;> assumption⟩
  rw [State.WritesOnly, hpieces]
  simp [Piece.content, Piece.Content]

/-! What the shared operations may write. -/

/-- Pieces that are written on the device sink only. -/
def State.onDevice (s : State) (ps : List Piece) : List Piece := if s.simulate then [] else ps

@[simp] theorem State.mem_onDevice {s : State} {ps : List Piece} {p : Piece} :
    p ∈ s.onDevice ps ↔ s.simulate = false ∧ p ∈ ps := by
  unfold State.onDevice
  cases s.simulate <;> simp

/-- What a transaction of the frame encoder may write (60_exceptions.md R194). -/
def State.sendPieces (s : State) : List Piece := [.line, .latch, .buffer, .stream] ++ s.onDevice [.wires, .fault]

theorem State.sendFrame_writesOnly (r g b : Nat) (s : State) : s.WritesOnly s.sendPieces (s.sendFrame r g b) := by
  rcases s.sendFrame_cases r g b with ⟨hs, e⟩ | ⟨hs, _, e⟩ | ⟨hs, n, _, e⟩ <;> rw [e, State.writesOnly_iff]
  · rw [State.sendFrameSim_eq]
    simp [State.sendPieces]
  · rw [State.sendFrameWith_ok]
    simp [State.sendPieces, hs]
  · rw [State.sendFrameWith_fail]
    simp [State.sendPieces, hs]

theorem State.sendStatic_writesOnly (following : StPhase) (s : State) :
    s.WritesOnly (.static :: s.sendPieces) (s.sendStatic following) := by
  have hsend := (s.sendFrame_writesOnly (unpackColor s.color).r (unpackColor s.color).g (unpackColor s.color).b).mono
    (List.subset_cons_self .static _)
  rw [State.sendStatic_eq]
  split
  · exact hsend
  · exact hsend.trans (State.writesOnly_iff.2 (by simp))

theorem State.staticStep_writesOnly (s : State) : s.WritesOnly (.static :: s.sendPieces) s.staticStep := by
  unfold State.staticStep
  split
  case h_1 | h_3 => exact s.sendStatic_writesOnly _
  case h_2 | h_4 => exact State.writesOnly_iff.2 (by simp)

/-- The piece that holds the state of a mode (10_state.md R29 to R33, R39). -/
def modePiece : Mode → Piece
  | .cpuLoad => .cpuLoad
  | .colorCycle => .colorCycle
  | .pulse => .pulse
  | .static => .static

theorem State.tickState_writesOnly (s : State) : s.WritesOnly [modePiece s.mode] s.tickState := by
  unfold State.tickState
  cases s.mode <;> exact State.writesOnly_iff.2 (by simp [modePiece])

theorem State.runTick_writesOnly (s : State) : s.WritesOnly (modePiece s.mode :: s.sendPieces) s.runTick := by
  rcases s.runTick_cases with ⟨hm, _, e⟩ | ⟨hm, _, e⟩ | ⟨_, _, e⟩ | ⟨_, _, e⟩ <;> rw [e]
  · rw [hm]
    exact s.staticStep_writesOnly.trans (State.writesOnly_iff.2 (by simp))
  · rw [hm]
    exact s.staticStep_writesOnly
  · exact State.writesOnly_iff.2 (by simp)
  · obtain ⟨hsim, -, -⟩ := s.tickState_registers
    have htick : s.WritesOnly (modePiece s.mode :: s.sendPieces) s.tickState.debugTick :=
      (s.tickState_writesOnly.mono (by simp)).trans (State.writesOnly_iff.2 (by simp))
    have hpieces : s.tickState.debugTick.sendPieces = s.sendPieces := by
      simp [State.sendPieces, State.onDevice, hsim]
    exact htick.trans ((State.sendFrame_writesOnly _ _ _ _).mono (hpieces ▸ List.subset_cons_self _ _))

/-! Operation by operation. -/

/-- The pieces an operation may write (60_exceptions.md R194). -/
def State.writable (s : State) : Instr → List Piece
  | .setd _ | .clkh | .clkl => [.line]
  | .emit => [.buffer]
  | .encbit _ | .encbyte _ => [.line, .buffer]
  | .encframe _ _ _ => [.line, .latch, .buffer]
  | .sendframe _ _ _ => s.sendPieces
  | .decframe _ | .unpack _ | .sample | .exit _ => []
  | .tickCpuload => [.cpuLoad]
  | .tickCycle => [.colorCycle]
  | .tickPulse => [.pulse]
  | .stepStatic => .static :: s.sendPieces
  | .smploop => [.load]
  | .config _ => [.config, .fault]
  | .init => .inited :: s.onDevice [.wires, .fault]
  | .runtick => modePiece s.mode :: s.sendPieces
  | .write _ => .stream :: s.onDevice [.wires]
  | .simwrite _ _ => [.stream]
  | .teardown => s.onDevice [.wires]
  | .stopreq => [.stop]

/-- Every operation leaves as they were the pieces it may not write. -/
theorem exec_writesOnly {i : Instr} {s t : State} (h : exec i s = .next t) : s.WritesOnly (s.writable i) t := by
  cases i with
  | sendframe r g b =>
    obtain ⟨_, h⟩ := asRender_eq_next.1 h
    obtain ⟨_, ⟨⟩⟩ := guardSend_eq_next.1 h
    exact s.sendFrame_writesOnly r g b
  | stepStatic =>
    obtain ⟨_, h⟩ := asRender_eq_next.1 h
    split_ifs at h
    obtain ⟨_, ⟨⟩⟩ := guardSend_eq_next.1 h
    exact s.staticStep_writesOnly
  | runtick =>
    obtain ⟨_, h⟩ := asRender_eq_next.1 h
    obtain ⟨_, ⟨⟩⟩ := guardSend_eq_next.1 h
    exact s.runTick_writesOnly
  | config record =>
    obtain ⟨_, h⟩ := asRender_eq_next.1 h
    split_ifs at h
    cases h
    unfold State.configure
    split
    · exact State.writesOnly_iff.2 (by simp [State.writable])
    · exact State.writesOnly_iff.2 (by simp [State.writable, State.rejectConfig_eq])
  | init =>
    obtain ⟨_, h⟩ := asRender_eq_next.1 h
    split_ifs at h with hsim <;> cases h
    · exact State.writesOnly_iff.2 (by simp)
    · have hdev : s.simulate = false := by simpa using hsim
      cases s.deviceAnswer
      · exact State.writesOnly_iff.2 (by simp [State.writable, State.initWith_false, hdev])
      · exact State.writesOnly_iff.2 (by simp [State.writable, State.initWith_true, hdev])
  | write bytes =>
    obtain ⟨_, h⟩ := asRender_eq_next.1 h
    split_ifs at h with hsim
    obtain ⟨_, ⟨⟩⟩ := guardSend_eq_next.1 h
    have hdev : s.simulate = false := by simpa using hsim
    exact State.writesOnly_iff.2 (by simp [State.writable, State.deviceWrite, State.deviceWriteWith_eq, hdev])
  | teardown =>
    obtain ⟨_, ⟨⟩⟩ := asRender_eq_next.1 h
    refine State.writesOnly_iff.2 ?_
    cases hsim : s.simulate <;> simp [State.writable, hsim]
  | smploop =>
    obtain ⟨_, ⟨⟩⟩ := whileRunning_eq_next.1 h
    refine State.writesOnly_iff.2 ?_
    rcases s.afterMetricAnswer.keepSample_eq (sampleResult s.metricAnswer) with ⟨p, _, e⟩ | ⟨_, e⟩ <;>
      simp [e, State.writable]
  | stopreq =>
    obtain ⟨_, h⟩ := whileRunning_eq_next.1 h
    split_ifs at h <;> cases h <;> exact State.writesOnly_iff.2 (by simp [State.writable])
  | exit code =>
    obtain ⟨_, _, rfl⟩ := exec_exit_eq_next.1 h
    exact State.writesOnly_iff.2 (by simp)
  | decframe bytes =>
    cases h
    exact State.writesOnly_iff.2 (by simp)
  | sample =>
    obtain ⟨_, ⟨⟩⟩ := whileRunning_eq_next.1 h
    exact State.writesOnly_iff.2 (by simp)
  | setd _ | clkh | clkl | emit | encbit _ | encbyte _ | encframe _ _ _ | tickCpuload | tickCycle | tickPulse
  | unpack _ | simwrite _ _ =>
    obtain ⟨_, ⟨⟩⟩ := asRender_eq_next.1 h
    exact State.writesOnly_iff.2
      (by simp [State.writable, State.encBit_eq, State.encByte_eq, State.encFrame_eq])

/-! Piece by piece. -/

/-- When an operation is one of the writers of a piece (60_exceptions.md R194); `Piece.writer_of_mem_writable` ties it
to `State.writable`. -/
def Piece.Writer (i : Instr) (s : State) : Piece → Prop
  | .line => i.opcode ∈ [0x01, 0x02, 0x03, 0x08, 0x09, 0x10, 0x11, 0x23, 0x42]
  | .latch => i.opcode ∈ [0x10, 0x11, 0x23, 0x42]
  | .buffer => i.opcode ∈ [0x04, 0x08, 0x09, 0x10, 0x11, 0x23, 0x42]
  | .stream => i.opcode ∈ [0x11, 0x23, 0x42, 0x43, 0x44]
  | .wires => i.opcode ∈ [0x11, 0x23, 0x41, 0x42, 0x43, 0x45] ∧ s.simulate = false
  | .fault => i.opcode ∈ [0x11, 0x23, 0x40, 0x41, 0x42]
  | .load => i = .smploop
  | .config => ∃ c, i = .config c
  | .stop => i = .stopreq
  | .inited => i = .init
  | .cpuLoad => i = .tickCpuload ∨ (i = .runtick ∧ s.mode = .cpuLoad)
  | .colorCycle => i = .tickCycle ∨ (i = .runtick ∧ s.mode = .colorCycle)
  | .pulse => i = .tickPulse ∨ (i = .runtick ∧ s.mode = .pulse)
  | .static => i = .stepStatic ∨ (i = .runtick ∧ s.mode = .static)

theorem Piece.writer_of_mem_writable {i : Instr} {s : State} : ∀ p ∈ s.writable i, p.Writer i s := by
  cases i with
  | runtick =>
    cases hm : s.mode <;> cases hsim : s.simulate <;>
      simp [State.writable, State.sendPieces, modePiece, Piece.Writer, Instr.opcode, hm, hsim]
  | sendframe _ _ _ | stepStatic | init | write _ | teardown =>
    cases hsim : s.simulate <;> simp [State.writable, State.sendPieces, Piece.Writer, Instr.opcode, hsim]
  | setd _ | clkh | clkl | emit | encbit _ | encbyte _ | encframe _ _ _ | decframe _ | tickCpuload | tickCycle
  | tickPulse | unpack _ | sample | smploop | config _ | simwrite _ _ | exit _ | stopreq =>
    simp [State.writable, Piece.Writer, Instr.opcode]

/-- Settles O50: an operation writes only its own pieces, and is a writer of each of these. -/
theorem ownershipOfState : Obligations.OwnershipOfState := by
  intro i s t h
  have hkept {p : Piece} (hp : ¬p.Writer i s) : p ∉ s.writable i := fun hmem => hp (p.writer_of_mem_writable hmem)
  obtain ⟨hline, hlatch, hbuffer, hstream, hwires, hfault, hload, hconfig, hstop, hinited, hcpu, hcycle, hpulse,
    hstatic⟩ := State.writesOnly_iff.1 (exec_writesOnly h)
  refine ⟨fun hi => hline (hkept hi), fun hi => hlatch (hkept hi), fun hi => hbuffer (hkept hi),
    fun hi => hstream (hkept hi), fun hi => hwires (hkept ?_), fun hi => hfault (hkept hi),
    fun hi => hload (hkept hi), fun hi => hconfig (hkept fun ⟨c, hc⟩ => hi c hc), fun hi => hstop (hkept hi),
    fun hi => hinited (hkept hi), fun hi hr => hcpu (hkept (not_or.2 ⟨hi, hr⟩)),
    fun hi hr => hcycle (hkept (not_or.2 ⟨hi, hr⟩)), fun hi hr => hpulse (hkept (not_or.2 ⟨hi, hr⟩)),
    fun hi hr => hstatic (hkept (not_or.2 ⟨hi, hr⟩))⟩
  rintro ⟨hcode, hdev⟩
  rcases hi with hi | hi
  · exact hi hcode
  · exact absurd (hi.symm.trans hdev) (by decide)

end Sys2Proof.Machine

/-! SUPPORT. The fatal exceptions (60_exceptions.md R180 to R184, R189): which operation raises which, and what a refused
frame and an illegal record leave. -/

namespace Sys2Proof.Machine

/-! Which operation raises which exception. -/

/-- A transaction raises nothing but a `WriteFailure`, and that on the device sink (60_exceptions.md R182). -/
theorem State.sendFrame_fault (r g b : Nat) (s : State) :
    (s.sendFrame r g b).fault = s.fault ∨
      (s.simulate = false ∧ ∃ x, (s.sendFrame r g b).fault = some (.writeFailure x)) := by
  rcases s.sendFrame_cases r g b with ⟨_, e⟩ | ⟨_, _, e⟩ | ⟨hdev, n, _, e⟩ <;> rw [e]
  · exact .inl (by rw [State.sendFrameSim_eq])
  · exact .inl (by rw [State.sendFrameWith_ok, State.afterSinkAnswer_fault])
  · exact .inr ⟨hdev, _, by rw [State.sendFrameWith_fail]⟩

theorem State.sendStatic_fault (following : StPhase) (s : State) :
    (s.sendStatic following).fault =
      (s.sendFrame (unpackColor s.color).r (unpackColor s.color).g (unpackColor s.color).b).fault := by
  rw [State.sendStatic_eq]
  split <;> rfl

theorem State.staticStep_fault (s : State) :
    s.staticStep.fault = s.fault ∨ (s.simulate = false ∧ ∃ x, s.staticStep.fault = some (.writeFailure x)) := by
  unfold State.staticStep
  split
  case h_1 | h_3 =>
    rw [State.sendStatic_fault]
    exact s.sendFrame_fault _ _ _
  case h_2 | h_4 => exact .inl rfl

theorem State.runTick_fault (s : State) :
    s.runTick.fault = s.fault ∨ (s.simulate = false ∧ ∃ x, s.runTick.fault = some (.writeFailure x)) := by
  rcases s.runTick_cases with ⟨_, _, e⟩ | ⟨_, _, e⟩ | ⟨_, _, e⟩ | ⟨_, _, e⟩ <;> rw [e]
  · exact s.staticStep_fault
  · exact s.staticStep_fault
  · exact .inl rfl
  · obtain ⟨hsim, -, -⟩ := s.tickState_registers
    obtain ⟨-, -, -, -, hfault⟩ := s.tickState_frame
    rw [← hsim, ← hfault]
    exact s.tickState.debugTick.sendFrame_fault _ _ _

/-- What an operation can do to `FAULT` (60_exceptions.md R180 to R184): nothing, or raise the exception that is its
own. -/
theorem exec_fault {i : Instr} {s t : State} (h : exec i s = .next t) :
    t.fault = s.fault ∨
      (i = .init ∧ s.simulate = false ∧ t.fault = some (.deviceUnavailable .enteringBitbang)) ∨
      (SendsFrame i ∧ s.simulate = false ∧ ∃ x, t.fault = some (.writeFailure x)) ∨
      ((∃ record, i = .config record) ∧ ∃ o, t.fault = some (.configurationInvalid o)) := by
  cases i with
  | sendframe r g b =>
    obtain ⟨_, h⟩ := asRender_eq_next.1 h
    obtain ⟨_, ⟨⟩⟩ := guardSend_eq_next.1 h
    exact (s.sendFrame_fault r g b).imp_right fun hx => .inr (.inl ⟨.inr (.inr ⟨r, g, b, rfl⟩), hx⟩)
  | stepStatic =>
    obtain ⟨_, h⟩ := asRender_eq_next.1 h
    split_ifs at h
    obtain ⟨_, ⟨⟩⟩ := guardSend_eq_next.1 h
    exact s.staticStep_fault.imp_right fun hx => .inr (.inl ⟨.inr (.inl rfl), hx⟩)
  | runtick =>
    obtain ⟨_, h⟩ := asRender_eq_next.1 h
    obtain ⟨_, ⟨⟩⟩ := guardSend_eq_next.1 h
    exact s.runTick_fault.imp_right fun hx => .inr (.inl ⟨.inl rfl, hx⟩)
  | config record =>
    obtain ⟨_, h⟩ := asRender_eq_next.1 h
    split_ifs at h
    cases h
    unfold State.configure
    split
    · exact .inl rfl
    · exact .inr (.inr (.inr ⟨⟨record, rfl⟩, _, rfl⟩))
  | init =>
    obtain ⟨_, h⟩ := asRender_eq_next.1 h
    split_ifs at h with hsim <;> cases h
    · exact .inl rfl
    · cases s.deviceAnswer
      · exact .inr (.inl ⟨rfl, by simpa using hsim, by rw [State.initWith_false]⟩)
      · exact .inl (by rw [State.initWith_true, State.afterDeviceAnswer_fault])
  | setd _ | clkh | clkl | emit | encbit _ | encbyte _ | encframe _ _ _ | decframe _ | tickCpuload | tickCycle
  | tickPulse | unpack _ | sample | smploop | write _ | simwrite _ _ | teardown | exit _ | stopreq =>
    exact .inl (exec_writesOnly h .fault (by simp [State.writable]))

/-- Settles O49: a fault that was not there before is one that the operation can raise. -/
theorem whatRaisesWhat : Obligations.WhatRaisesWhat := by
  refine ⟨fun i s t c hf h hc => ?_, rfl, fun x => by cases x <;> decide⟩
  rcases exec_fault h with e | ⟨hi, hdev, e⟩ | ⟨hi, hdev, x, e⟩ | ⟨hi, o, e⟩
  · exact absurd (hf.symm.trans (e.symm.trans hc)) nofun
  · cases hc.symm.trans e
    exact ⟨hi, rfl, hdev⟩
  · cases hc.symm.trans e
    exact ⟨hi, hdev⟩
  · cases hc.symm.trans e
    exact hi

/-! A refused frame, an illegal record, and the step that follows them. -/

/-- With nothing issued, the step after a fatal exception is `EXIT EXIT_FAIL` (60_exceptions.md R189). -/
theorem step_of_fault {s : State} (hi : s.issue = []) (hx : s.exitStatus = none) (hf : s.fault ≠ none) :
    step s = exec (.exit .fail) s := by
  rw [step_of_nothing_issued hi, nextAction_of_fault hx hf]
  rfl

/-- Settles O19: with the sink's answer a failure, the frame's write is a fatal `WriteFailure`. -/
theorem sendframeRefusedByTheDevice : Obligations.SendframeRefusedByTheDevice := by
  intro s r g b n hr hsim hinit hanswer
  have hsend : s.sendFrame r g b = s.afterSinkAnswer.sendFrameWith r g b (.fail n) := by
    rw [State.sendFrame, hsim, hanswer]
    rfl
  obtain ⟨hclock, -⟩ := s.frameLine_ends r g b
  refine ⟨_, exec_sendframe_of_ready hr (s.sinkReady_iff.2 (.inr hinit)) r g b, ?_⟩
  rw [hsend, State.sendFrameWith_fail]
  exact ⟨rfl, rfl, List.append_assoc _ _ _, hclock, rfl, fun hi => step_of_fault hi hr.1 nofun⟩

/-- What an illegal option says of its record (30_encoding.md R72, 92_eei_decisions.md D22). -/
theorem illegal_of_mem_illegalOptions {c : ConfigRecord} {o : OptionName} (h : o ∈ illegalOptions c) :
    (o = .mode → c.mode = .bad) ∧ (o = .speed → c.speed = .bad) ∧
      (o = .color → c.color = .bad ∨ ∃ n, c.color = .given n ∧ 2 ^ 24 ≤ n) ∧ (o = .beat → c.beat = .bad) ∧
      (o = .throb → c.throb = .bad) ∧ (o = .simulate → c.simulate = .bad) ∧ (o = .debug → c.debug = .bad) ∧
      (o = .unknown → c.unknownOption = true) := by
  rw [mem_illegalOptions] at h
  refine ⟨?_, ?_, ?_, ?_, ?_, ?_, ?_, ?_⟩ <;> rintro rfl <;> simpa using h

/-- Settles O36: an illegal record has an illegal option, so it is refused, and the option named is one of them. -/
theorem configRefusesAnIllegalRecord : Obligations.ConfigRefusesAnIllegalRecord := by
  intro s c hr hp hbad
  have hillegal : illegalOptions c ≠ [] := fun hnil => by
    obtain ⟨hmode, hspeed, ⟨hcolor, hfits⟩, hbeat, hthrob, hsim, hdebug, hunknown⟩ := (illegalOptions_eq_nil c).1 hnil
    rcases hbad with h | h | h | ⟨n, h, hn⟩ | h | h | h | h | h
    exacts [hmode h, hspeed h, hcolor h, Nat.not_lt.2 hn (hfits n h), hbeat h, hthrob h, hsim h, hdebug h,
      absurd (hunknown.symm.trans h) nofun]
  have hexec : exec (.config c) s = .next (s.rejectConfig (illegalOptions c)) := by
    rw [exec_config, asRender_of_ready hr, if_pos hp, State.configure, if_neg hillegal]
  obtain ⟨hmode, hspeed, hcolor, hbeat, hthrob, hsim, hdebug, hunknown⟩ :=
    illegal_of_mem_illegalOptions (offendingOption_mem hillegal (Config.whichOption s.draws))
  exact ⟨_, hmode, hspeed, hcolor, hbeat, hthrob, hsim, hdebug, hunknown, hexec, fun hi => step_of_fault hi hr.1 nofun⟩

end Sys2Proof.Machine

/-! SUPPORT. Reset (70_reset_and_hazards.md R210, R211): the values the registers hold, and that a run starts within the
invariants that every step keeps (O53, O55). -/

namespace Sys2Proof.Machine

/-- Settles O60: each conjunct is the value `State.reset` gives to the register. -/
theorem resetValues : Obligations.ResetValues := by
  unfold Obligations.ResetValues
  exact ⟨rfl, rfl, rfl, rfl, rfl, rfl, rfl, rfl, rfl, rfl, rfl, rfl, rfl, rfl, rfl, rfl, rfl, rfl, rfl, rfl, rfl, rfl, rfl,
    rfl⟩

/-- The line state has its reserved bits 0, the buffer is empty, and every counter and percentage is 0; the sampler has
no value yet. -/
theorem State.reset_inv : State.reset.Inv where
  reserved := reservedOf_zero linePins
  position := rfl
  speed := by decide
  smoothed := Nat.zero_le _
  rendered := Nat.zero_le _
  last := Nat.zero_le _
  index := by decide
  cycleStep := by decide
  counters := rfl
  sampled := nofun
  unsampled _ := ⟨rfl, rfl⟩

/-- Settles O54. -/
theorem invariantAtReset : Obligations.InvariantAtReset := State.reset_inv

/-- The run starts before the loop, with nothing issued, sent or stopped: what the invariant says of a mode's registers
holds because each is at its reset value, and what it says of an exception, a later place in the run, or an exit status
is about something that is not there yet. -/
theorem State.reset_runInv : State.reset.RunInv where
  inv := State.reset_inv
  nothingIssued := rfl
  clockLow := clockOf_zero linePins
  empty := rfl
  whole _ := dvd_zero 72
  noFrameYet _ := ⟨rfl, rfl⟩
  initialised := nofun
  notInitialised _ := rfl
  unconfigured _ := ⟨rfl, rfl, rfl, rfl⟩
  deviceRun _ := rfl
  simulated _ := rfl
  cpuUnselected _ := ⟨rfl, rfl⟩
  cycleUnselected _ := ⟨rfl, rfl⟩
  pulseUnselected _ := rfl
  staticUnselected _ := rfl
  staticFrames _ _ := rfl
  badConfig := nofun
  noDevice := nofun
  failedWrite := nofun
  loopLeft := nofun
  tornDownOnce := nofun
  exited := nofun

/-- Settles O56. -/
theorem runInvariantAtReset : Obligations.RunInvariantAtReset := State.reset_runInv

end Sys2Proof.Machine
